-- ==== Sys2Proof/Word.lean ====
section
/-! DEFINITION. The widths of the HK-480: every field that a front transaction, a descriptor, a back address or the
supervisor link carries, as the bit vector that holds exactly its range (R1, R4, R24, R30, R203, R204). -/

namespace Sys2Proof

/-- One byte. -/
abbrev Byte := BitVec 8

/-- A line: 64 bytes, numbered 0 to 63; byte `i` lies in beat `i ÷ 8` (R1). -/
abbrev Line := Vector Byte 64

/-- One mark for each byte of a line: byte enables of a front write, byte masks of a back write, line sets of a page. -/
abbrev Marks := BitVec 64

/-- A front transaction's tag, 0 to 15. -/
abbrev Tag := BitVec 4

/-- A beat of a line, 0 to 7. -/
abbrev Beat := BitVec 3

/-- A domain number or domain tag, 0 to 63. -/
abbrev DomId := BitVec 6

/-- A front page number, 0 to 16383. -/
abbrev Fpn := BitVec 14

/-- A back page number in the key page store, 0 to 16383. -/
abbrev Bpn := BitVec 14

/-- A line of a page, 0 to 63. -/
abbrev PageLine := BitVec 6

/-- A front line: the 32-bit front line address divided by 64. The port carries no bits below the line (R1). -/
abbrev FrontLine := BitVec 26

/-- A back line: the 31-bit back line address divided by 64. -/
abbrev BackLine := BitVec 25

/-- A map line number `k`, 0 to 131,071 (R19). -/
abbrev MapLine := BitVec 17

/-- A domain epoch, 0 to 255. -/
abbrev Epoch := BitVec 8

/-- A seed: 256 bits (R74). -/
abbrev Seed := BitVec 256

/-- PAB divided by 128 MiB: PAB has 16 values (R5). -/
abbrev PabIndex := BitVec 4

/-- The line of 64 zero bytes. -/
def zeroLine : Line := Vector.replicate 64 0#8

/-- Every mark set. -/
def allMarks : Marks := BitVec.allOnes 64

end Sys2Proof
end

