-- ==== Sys2Proof/Syntax.lean ====
section
/-! DEFINITION. The commands of the HK-480: one constructor of `Instr` for each row of the table of operations and
events, with the row's operands. -/

namespace Sys2Proof

/-- Direction of a front transaction (R1). -/
inductive Direction where
  | read
  | write
  deriving DecidableEq, Repr

/-- Privilege of a front transaction (R1). -/
inductive Privilege where
  | app
  | kernel
  deriving DecidableEq, Repr

/-- The two custodians, each with a keyswitch (chapter 6). -/
inductive Custodian where
  | a
  | b
  deriving DecidableEq, Repr

/-- A front transaction as it is presented (R1). Write data and byte enables mean nothing in a read. -/
structure Txn where
  tag : Tag
  dir : Direction
  line : FrontLine
  beat : Beat
  dom : DomId
  priv : Privilege
  data : Line
  enables : Marks
  deriving DecidableEq, Repr

/-- A write transfer of the supervisor link (R193): the 7-bit target address it was sent to and the argument bytes that
follow the command code. The code is the one that picks the row: Machine.commandTable. -/
structure Frame where
  addr : BitVec 7
  args : List Byte
  deriving DecidableEq, Repr

/-- Which waiting update request is taken (R34): the kernel merge of a front tag, or the Entry Unit's part update. -/
inductive UpdatePick where
  | kernel (tag : Tag)
  | part
  deriving DecidableEq, Repr

/-- The commands: one constructor for each row of the table, in the table's order. -/
inductive Instr where
  /-- FRONT_TRANSACTION (R3): `t` is presented at the front port. -/
  | frontTransaction (t : Txn)
  /-- HELD_TRANSACTION_ACCEPTED (R3). -/
  | heldTransactionAccepted
  /-- FOLLOWING_START (R8) of the transaction with this tag. -/
  | followingStart (tag : Tag)
  /-- RESPONSE_DELIVERY (R14) to this tag. -/
  | responseDelivery (tag : Tag)
  /-- BACK_QUEUE_ENTRY (R131). -/
  | backQueueEntry
  /-- WALK_COMPLETION (R60). -/
  | walkCompletion
  /-- WAITING_LOOKUP_REPEAT (R58). -/
  | waitingLookupRepeat
  /-- MAP_READ_RESUME (R32) of the map-window read with this tag. -/
  | mapReadResume (tag : Tag)
  /-- UPDATE_TAKEN (R34). -/
  | updateTaken (pick : UpdatePick)
  /-- UPDATE_LINE_READ_ARRIVAL (R36). -/
  | updateLineReadArrival
  /-- UPDATE_LINE_WRITE (R36) of the entry that holds this map line. -/
  | updateLineWrite (k : MapLine)
  /-- MERGE_RELEASE (R47) of the merge on this map line. -/
  | mergeRelease (k : MapLine)
  /-- FILL_LINE_WRITE (R45). -/
  | fillLineWrite
  /-- RUN_PULSE (R27). -/
  | runPulse
  /-- LEASE_EXPIRY (R85) of this domain. -/
  | leaseExpiry (d : DomId)
  /-- WINDOW_LAPSE (R98) of this custodian's window. -/
  | windowLapse (x : Custodian)
  /-- REGISTERED_SWITCH_ON (R97). -/
  | registeredSwitchOn (x : Custodian)
  /-- REGISTERED_SWITCH_OFF (R99). -/
  | registeredSwitchOff (x : Custodian)
  /-- COMPONENT_WRITE (R103). -/
  | componentWrite
  /-- COMBINING_READ_BURST (R107). -/
  | combiningReadBurst
  /-- FINALISATION (R109). -/
  | finalisation
  /-- LIVE_ZERO_FILL_COMPLETE (R110). -/
  | liveZeroFillComplete
  /-- DEFERRED_FINALISATION (R115). -/
  | deferredFinalisation
  /-- ABANDONMENT (R113). -/
  | abandonment
  /-- SELECTION (R133). -/
  | selection
  /-- ACTIVATION (R121) at back clock `t`. -/
  | activation (t : Nat)
  /-- PRECHARGE (R123) at back clock `t`. -/
  | precharge (t : Nat)
  /-- AUTOMATIC_PRECHARGE (R123) of this bank. -/
  | automaticPrecharge (rank : Fin 2) (bank : Fin 8)
  /-- COLUMN_COMMAND (R135) at back clock `t`. -/
  | columnCommand (t : Nat)
  /-- READ_BURST (R136). -/
  | readBurst
  /-- WRITE_COMPLETION (R137). -/
  | writeCompletion
  /-- REFRESH_ACCRUAL (R126) of this rank. -/
  | refreshAccrual (rank : Fin 2)
  /-- REFRESH (R127) at back clock `t`. -/
  | refresh (t : Nat)
  /-- REFRESH_END (R127) of this rank. -/
  | refreshEnd (rank : Fin 2)
  /-- START_UP_END (R140). -/
  | startUpEnd
  /-- CONVERSION (R146) of an analog input that stands at `nanovolts`. -/
  | conversion (nanovolts : Int)
  /-- CHANNEL_DETECTION (R147). -/
  | channelDetection (c : Fin 8)
  /-- MESH_CROSSING (R152): a rising crossing captures the interval counter as it stands. -/
  | meshCrossing (m : Fin 2)
  /-- MESH_MISS (R153). -/
  | meshMiss (m : Fin 2)
  /-- MESH_DETECTION (R152). -/
  | meshDetection (m : Fin 2)
  /-- LID_REGISTERED (R154) in this position. -/
  | lidRegistered (isOpen : Bool)
  /-- PANEL_REGISTERED (R154) in this position. -/
  | panelRegistered (pressed : Bool)
  /-- MONITOR_SECOND (R156). -/
  | monitorSecond
  /-- BACKGROUND_LINE_OFFER (R169). -/
  | backgroundLineOffer
  /-- SCRUB_DONE (R169). -/
  | scrubDone
  /-- CLEAR_DONE (R173). -/
  | clearDone
  /-- MAINS_LOSS (R177): PGOOD falls. -/
  | mainsLoss
  /-- MAINS_RETURN (R178): PGOOD rises; the address strap stands at `strap`. -/
  | mainsReturn (strap : BitVec 2)
  /-- RST_ASSERTED (R179). -/
  | rstAsserted
  /-- RST_END (R179); the address strap stands at `strap`. -/
  | rstEnd (strap : BitVec 2)
  /-- FIRST_BATTERY_CONNECTION (R180): PGOOD stands at `pgood` and the address strap at `strap`. -/
  | firstBatteryConnection (pgood : Bool) (strap : BitVec 2)
  /-- ANSWER_READ (R196): a read transfer to `addr` in which the controller reads `count` bytes. -/
  | answerRead (addr : BitVec 7) (count : Nat)
  /-- UNKNOWN (R194): a write transfer whose command code is `code`. -/
  | unknown (code : Byte) (f : Frame)
  /-- STATUS (R200). -/
  | status (f : Frame)
  /-- COMMISSION (R171). -/
  | commission (f : Frame)
  /-- RECOMMISSION (R171). -/
  | recommission (f : Frame)
  /-- RESUME (R175). -/
  | resume (f : Frame)
  /-- CLEAR-MAP (R176). -/
  | clearMap (f : Frame)
  /-- ZEROISE (R155). -/
  | zeroise (f : Frame)
  /-- ENROL (R78). -/
  | enrol (f : Frame)
  /-- ERASE (R82). -/
  | erase (f : Frame)
  /-- OPEN-RUN (R79). -/
  | openRun (f : Frame)
  /-- EXTEND-RUN (R80). -/
  | extendRun (f : Frame)
  /-- CLOSE-RUN (R81). -/
  | closeRun (f : Frame)
  /-- READ-DOMAIN (R84). -/
  | readDomain (f : Frame)
  /-- READ-EXPIRED (R189). -/
  | readExpired (f : Frame)
  /-- CLEAR-EXPIRED (R189). -/
  | clearExpired (f : Frame)
  /-- SET-ENTRY (R95). -/
  | setEntry (f : Frame)
  /-- ABANDON-ENTRY (R113). -/
  | abandonEntry (f : Frame)
  /-- READ-ENTRY (R116). -/
  | readEntry (f : Frame)
  /-- LOCK (R67). -/
  | lock (f : Frame)
  /-- UNLOCK (R69). -/
  | unlock (f : Frame)
  /-- DEMAP-PAGE (R66). -/
  | demapPage (f : Frame)
  /-- DEMAP-DOMAIN (R66). -/
  | demapDomain (f : Frame)
  /-- DEMAP-ALL (R66). -/
  | demapAll (f : Frame)
  /-- READ-REFUSAL (R185). -/
  | readRefusal (f : Frame)
  /-- CLEAR-REFUSAL (R185). -/
  | clearRefusal (f : Frame)
  /-- READ-TAMPER (R158). -/
  | readTamper (f : Frame)
  /-- ACK-TAMPER (R159). -/
  | ackTamper (f : Frame)
  /-- READ-RESULTS (R160). -/
  | readResults (f : Frame)
  /-- CLEAR-EVENTS (R188). -/
  | clearEvents (f : Frame)
  /-- CONFIGURE item 1, PAB (R5). -/
  | configurePab (f : Frame)
  /-- CONFIGURE item 2, back timing (R120). -/
  | configureBackTiming (f : Frame)
  /-- CONFIGURE item 3, page policy (R124). -/
  | configurePagePolicy (f : Frame)
  /-- CONFIGURE item 4, run compare (R28). -/
  | configureRunCompare (f : Frame)
  /-- CONFIGURE item 5, entry limit (R96). -/
  | configureEntryLimit (f : Frame)
  /-- CONFIGURE item 6, channel settings (R148). -/
  | configureChannelSettings (f : Frame)
  /-- CONFIGURE item 7, mesh settings (R150). -/
  | configureMeshSettings (f : Frame)
  /-- CONFIGURE item 8, converter mode (R149). -/
  | configureConverterMode (f : Frame)
  /-- CONFIGURE item 9, scrub setting (R163). -/
  | configureScrubSetting (f : Frame)
  /-- CONFIGURE item 10, event enables (R187). -/
  | configureEventEnables (f : Frame)
  /-- MESH_DRIVE_PHASE (R151). -/
  | meshDrivePhase (m : Fin 2)
  deriving DecidableEq, Repr

end Sys2Proof
end

