-- ==== Sys2Proof/Decode.lean ====
section
/-! DEFINITION. The words of commands. No row of the table of operations and events gives bits: a command is a bus
transaction, a link transfer or an event, not a word. So no word spells a command. -/

namespace Sys2Proof

/-- The command that a word spells by the table's bits: no row has any. -/
def decodeTableWord (_nbits _w : Nat) : Option Instr := none

end Sys2Proof
end

