-- ==== Sys2Proof/Config.lean ====
section
/-! DEFINITION. What the manual leaves open, as constants without a body (no proof can see their values), and the
fixed sizes of the part. -/

namespace Sys2Proof

/-- The key under which a domain's lines are enciphered: it is formed from the root seed and the domain's seed, and the
two fix it (R75). The manual does not say how, so the key is the pair itself. -/
structure LineKey where
  root : Seed
  domain : Seed
  deriving DecidableEq, Repr

/-- The Line Cipher (R75): for a key and a tweak, a permutation of the 64-byte values. The manual gives no algorithm,
so the permutation is free; the tweak is a back line. Log entry 3. -/
opaque Config.lineCipher : LineKey → BackLine → Equiv.Perm Line

/-- The `n`-th value the seed generator makes (R74): free. Log entry 4. -/
opaque Config.freshSeed : Nat → Seed

/-- What a byte of back memory holds after the `n`-th loss of power, at an address (R29, R178: whatever the DRAM holds):
free. Log entry 2. -/
opaque Config.dramByte : Nat → Nat → Byte

namespace Limit

/-- Transaction slots of the front port (R2). -/
def slots : Nat := 16
/-- Entries of the Walk List (R57). -/
def walks : Nat := 4
/-- Entries of the Update List (R33). -/
def updates : Nat := 8
/-- Entries of the Fill List (R44). -/
def fills : Nat := 48
/-- Entries of the Entry List (R101). -/
def entries : Nat := 32
/-- Entries of the Back Queue (R129). -/
def queue : Nat := 24
/-- A background request enters while the Back Queue holds at most this many (R131). -/
def backgroundGate : Nat := 12
/-- Entries of the service list (R133). -/
def service : Nat := 4
/-- Pass-overs after which a request is urgent (R134). -/
def passOver : Nat := 16
/-- Refreshes due at which a rank is FORCED (R128). -/
def refreshDue : Nat := 8
/-- Lines of the map, which a map clear writes (R173). -/
def mapLines : Nat := 131072
/-- Lines of the protected area, which a scrub writes (R169). -/
def areaLines : Nat := 1179648
/-- Back clocks of the DRAM's power-up sequence (R140). -/
def powerUpClocks : Nat := 131072
/-- Results the converter's history holds (R146). -/
def history : Nat := 4
/-- Consecutive samples that register a switch, the lid or the panel (R94, R154). -/
def samples : Nat := 64

end Limit

end Sys2Proof
end

