-- ==== Sys2Proof/Machine/State.lean ====
section
/-! DEFINITION. The state of the HK-480: one structure for each block that owns state (00_scope, Blocks), the back memory,
the queue of waiting commands, and the machine right after reset. Fields marked MODEL are the model's own. -/

namespace Sys2Proof.Machine

/-! ## Names the manual gives -/

/-- Regions of the front address layout (R4). -/
inductive Region where
  | plain
  | key
  | map
  | raw
  | unclaimed
  deriving DecidableEq, Repr

/-- Front statuses (R12). -/
inductive Status where
  | done
  | nowhere
  | shadow
  | unready
  | closed
  | absent
  | denied
  deriving DecidableEq, Repr

/-- Refusal kinds (R181). -/
inductive Kind where
  | held
  | unready
  | nowhere
  | closed
  | absent
  | shadow
  | denied
  deriving DecidableEq, Repr

/-- Reasons of a DENIED refusal; `noReason` is the NONE of every other kind (R181). -/
inductive Reason where
  | noReason
  | classRule
  | privilege
  | domain
  | lifecycle
  | noWindow
  | ambiguous
  | partialWrite
  | custodian
  | line
  | entryFull
  deriving DecidableEq, Repr

/-- Named page classes (R30); code 3 names none. -/
inductive PageClass where
  | dataRw
  | dataRo
  | key
  deriving DecidableEq, Repr

/-- Named lifecycles (R30); codes 6 and 7 name none. -/
inductive Lifecycle where
  | empty
  | first
  | half
  | second
  | live
  | retired
  deriving DecidableEq, Repr

/-- Domain states (R72). -/
inductive DomState where
  | vacant
  | closed
  | opened
  | spent
  deriving DecidableEq, Repr

/-- Cabinet states (R163). -/
inductive CabState where
  | blank
  | clearing
  | restore
  | ready
  | zeroed
  deriving DecidableEq, Repr

/-- Sub-states of ZEROED (R163). -/
inductive ZeroSub where
  | scrubbing
  | quiet
  deriving DecidableEq, Repr

/-- Power states (R164). -/
inductive Power where
  | mains
  | battery
  deriving DecidableEq, Repr

/-- Background operations (R163). -/
inductive BgOp where
  | idle
  | mapClear
  | scrub
  deriving DecidableEq, Repr

/-- Custodian window states (R97). -/
inductive WindowState where
  | shut
  | opened
  | lapsed
  deriving DecidableEq, Repr

/-- Phases of an Entry List entry (R101). -/
inductive EntryPhase where
  | first
  | half
  | second
  deriving DecidableEq, Repr

/-- Refresh states of a rank (R119). -/
inductive RefreshState where
  | normal
  | forced
  | refreshing
  deriving DecidableEq, Repr

/-- The causes of an alarm (R143): 21 in all. -/
inductive Cause where
  | chLow (c : Fin 8)
  | chHigh (c : Fin 8)
  | mesh (m : Fin 2)
  | lid
  | panel
  | command
  deriving DecidableEq, Repr

/-- The eleven event flags (R186), in the order R204 numbers them. -/
inductive Flag where
  | leaseExpired
  | runExtended
  | windowClosed
  | entryAbandoned
  | refusal
  | lockLost
  | bufferSkip
  | tamper
  | scrubDone
  | clearDone
  | mainsReturn
  deriving DecidableEq, Repr

/-- Answers of the supervisor link (R194). -/
inductive AnsCode where
  | none
  | accepted
  | state
  | range
  | busy
  | full
  | absent
  | length
  | unknown
  deriving DecidableEq, Repr

/-! ## Front Port and Region Decoder -/

/-- Progress of an outstanding transaction: FOLLOWING, the parts of ACTIVE, and RESPONDING (R2). A FREE slot is one that
the list of slots does not hold. -/
inductive Phase where
  /-- FOLLOWING: waits behind an older transaction to its front line. -/
  | following
  /-- ACTIVE: a waiter of a walk (R57). -/
  | walkWaiter
  /-- ACTIVE: waits for a walk to leave the Walk List (R58). -/
  | walkWaiting
  /-- ACTIVE: its read of back line `l` waits to enter the Back Queue (R131). -/
  | readWait (l : BackLine)
  /-- ACTIVE: its read of back line `l`, request `id`, is in the Back Queue or its burst is awaited. -/
  | readOut (l : BackLine) (id : Nat)
  /-- ACTIVE: its write of `d`, as yet plain, to back line `l` waits to enter the Back Queue. -/
  | writeWait (l : BackLine) (d : Line)
  /-- ACTIVE: a map-window read that waits for an Update List entry to leave (R32). -/
  | mapReadHeld
  /-- ACTIVE: a map-window write that waits to be taken into the Update List (R34). -/
  | updateWait
  /-- ACTIVE: a map-window write whose merge the Update List holds. -/
  | updateListed
  /-- ACTIVE: a component write that waits among the entry operations (R102). -/
  | entryWait
  /-- ACTIVE: the component write the Entry Unit is carrying out. -/
  | entryTaken
  /-- RESPONDING: the status is decided and, for a read, the data assembled. -/
  | responding (st : Status) (data : Line)
  deriving DecidableEq, Repr

/-- A transaction slot that is not FREE (R2). -/
structure Slot where
  txn : Txn
  /-- The region, once the transaction has started (R4). -/
  region : Option Region
  phase : Phase
  /-- MODEL: its domain was erased after its class check, so the key it needs is gone (R83). -/
  keyLost : Bool
  deriving DecidableEq, Repr

/-- A response on the front port (R12): for a read, 8 beats in burst order. -/
structure Response where
  tag : Tag
  status : Status
  beats : List (BitVec 64)
  deriving DecidableEq, Repr

/-- The Front Port and the Region Decoder. -/
structure FrontPort where
  /-- The outstanding transactions in the order of their acceptance, at most 16. -/
  slots : List Slot
  /-- The transaction held at the port (R3). -/
  held : Option Txn
  /-- The Region Decoder's copy of PAB (R5). -/
  pabCopy : PabIndex
  /-- MODEL: the response the port delivered last. -/
  response : Option Response
  deriving DecidableEq, Repr

/-! ## Translation Unit -/

/-- A buffered page (R50). -/
structure Page where
  dom : DomId
  fpn : Fpn
  bpn : Bpn
  cls : PageClass
  kernelOnly : Bool
  life : Lifecycle
  deriving DecidableEq, Repr

/-- The fields that both buffers hold, with their valid mark; the fields are kept while it is 0 (R50). -/
structure Held where
  valid : Bool
  fields : Page
  deriving DecidableEq, Repr

/-- A Fixed Buffer entry (R50). -/
structure FixedEntry where
  held : Held
  lock : Bool
  used : Bool
  deriving DecidableEq, Repr

/-- A set of the Set Buffer: two ways and the recency mark, true when it names way 1 (R50). -/
structure SetRow where
  way0 : Held
  way1 : Held
  recentOne : Bool
  deriving DecidableEq, Repr

/-- A walk (R57). -/
structure Walk where
  dom : DomId
  fpn : Fpn
  stale : Bool
  /-- Front waiters by tag, in the order they joined. -/
  waiters : List Tag
  /-- Whether it carries the lock request. -/
  lock : Bool
  /-- `none` in ISSUING; in READING the request that reads its line. -/
  req : Option Nat
  deriving DecidableEq, Repr

/-- A transaction that waits for a walk to leave the list (R58). -/
structure WalkWaiting where
  tag : Tag
  /-- Released by a walk that left: its lookup is to be repeated. -/
  released : Bool
  deriving DecidableEq, Repr

/-- The Translation Unit. -/
structure Translation where
  fixed : Vector FixedEntry 16
  sets : Vector SetRow 256
  /-- The Walk List, oldest first. -/
  walks : List Walk
  /-- Transactions that wait for a walk to leave, in the order they began to wait. -/
  waiting : List WalkWaiting
  deriving DecidableEq, Repr

/-! ## Map Unit -/

/-- One descriptor's part in a part update (R42). -/
structure PartChange where
  dom : DomId
  fpn : Fpn
  bpn : Bpn
  /-- The lifecycles one of which the stored descriptor must have. -/
  expect : List Lifecycle
  /-- The lifecycle it takes. -/
  life : Lifecycle
  /-- The first custodian it takes, where the change sets one. -/
  cust : Option Custodian
  deriving DecidableEq, Repr

/-- A part update of one map line (R42). -/
structure PartUpdate where
  line : MapLine
  changes : List PartChange
  deriving DecidableEq, Repr

/-- A request waiting to be taken into the Update List (R34). -/
inductive UpdateRequest where
  | kernel (tag : Tag) (k : MapLine)
  | part (p : PartUpdate)
  deriving DecidableEq, Repr

/-- Origin of an Update List entry (R33). -/
inductive UpdateOrigin where
  | kernel (tag : Tag)
  | part (p : PartUpdate)
  deriving DecidableEq, Repr

/-- States of an Update List entry (R33). -/
inductive UpdateState where
  | waiting
  /-- READING; the request of its line read once that has entered the Back Queue. -/
  | reading (req : Option Nat)
  /-- WRITING; whether it holds the Fill List room of its fills (R36). -/
  | writing (room : Bool)
  deriving DecidableEq, Repr

/-- A retire fill (R44). -/
structure Fill where
  dom : DomId
  fpn : Fpn
  bpn : Bpn
  line : MapLine
  /-- The next line to write, 0 to 63. -/
  next : Nat
  deriving DecidableEq, Repr

/-- An Update List entry (R33). -/
structure UpdateEntry where
  line : MapLine
  origin : UpdateOrigin
  state : UpdateState
  /-- The deciphered line, once read. -/
  stored : Line
  /-- The result, once formed. -/
  result : Line
  /-- The fills the result starts, in index order. -/
  fills : List Fill
  /-- Whether a change was held (R40). -/
  held : Bool
  /-- The pages whose Entry List entry the result removes (R38). -/
  removes : List (DomId × Fpn)
  deriving DecidableEq, Repr

/-- The Map Unit. -/
structure MapUnit where
  /-- The Update List, in the order of taking. -/
  updates : List UpdateEntry
  /-- Requests that wait to be taken, in the order they began to wait. -/
  requests : List UpdateRequest
  /-- MODEL: the waiting requests that waited together for a line when its entry left the list, so that either may be taken
  first (R34; log entry 47). -/
  together : List UpdateRequest
  /-- The Fill List, oldest first. -/
  fills : List Fill
  /-- Map lines of the WRITING entries that wait for fill room, in the order they entered WRITING (R36). -/
  roomOrder : List MapLine
  deriving DecidableEq, Repr

/-! ## Domain Table and Seed Store -/

/-- A domain record (R72). Seed present is read from the Seed Store; domain 0's state follows the cabinet (R73). -/
structure DomRec where
  state : DomState
  epoch : Epoch
  lease : BitVec 16
  staged : Option (BitVec 16)
  /-- MODEL: a run pulse at which this lease reaches 0 has been produced, and LEASE_EXPIRY has still to take it. -/
  ending : Bool
  deriving DecidableEq, Repr

/-- The Seed Store (R74). -/
structure SeedStore where
  root : Option Seed
  domains : Vector (Option Seed) 64
  /-- PAB, in units of 128 MiB (R5). -/
  pab : PabIndex
  /-- The clear-pending mark (R163). -/
  clearPending : Bool
  /-- MODEL: how many seeds the generator has made. -/
  made : Nat
  deriving DecidableEq, Repr

/-! ## Entry Unit -/

/-- A custodian input's registered position and its count of differing samples (R94). -/
structure SampledInput where
  on : Bool
  count : Nat
  deriving DecidableEq, Repr

/-- A custodian window (R97). -/
structure Window where
  state : WindowState
  remaining : BitVec 16
  /-- MODEL: a run pulse at which it reaches 0 has been produced, and WINDOW_LAPSE has still to take it. -/
  ending : Bool
  deriving DecidableEq, Repr

/-- An Entry List entry (R101). -/
structure EntryRec where
  dom : DomId
  fpn : Fpn
  bpn : Bpn
  phase : EntryPhase
  first : Custodian
  firstSet : Marks
  combinedSet : Marks
  deriving DecidableEq, Repr

/-- An entry operation that waits (R102). -/
inductive EntryOp where
  | component (tag : Tag) (bpn : Bpn) (life : Lifecycle)
  | finalise (x : Custodian)
  | deferred
  | abandon
  deriving DecidableEq, Repr

/-- Where a component write that is being carried out stands (R105 to R107). -/
inductive CompStage where
  /-- The first component write's part update is on its way. -/
  | firstUpdate
  /-- The first combining write's part update is on its way. -/
  | combineUpdate
  /-- The combining read waits to enter the Back Queue, or its request has entered. -/
  | reading (req : Option Nat)
  /-- The line write of `d`, as yet plain, waits to enter the Back Queue. -/
  | writing (d : Line)
  deriving DecidableEq, Repr

/-- A component write being carried out. -/
structure CompOp where
  tag : Tag
  dom : DomId
  fpn : Fpn
  line : PageLine
  bpn : Bpn
  /-- Whether it combines: its line joins the combined-line set, not the first-line set. -/
  combines : Bool
  stage : CompStage
  deriving DecidableEq, Repr

/-- What a finalisation is doing to the page it has in hand (R109 to R111, R115). -/
inductive FinStage where
  | half
  | keepHalf
  | retire
  /-- LIVE zero fill: the lines still to enqueue, and the requests whose completion is awaited. -/
  | filling (left : List PageLine) (out : List Nat)
  | live
  deriving DecidableEq, Repr

/-- The entry operation in progress (R102). -/
inductive EntryWork where
  | component (c : CompOp)
  /-- A finalisation: for one custodian, or deferred when `x` is `none`. -/
  | finalising (x : Option Custodian) (dom : DomId) (fpn : Fpn) (stage : FinStage) (rest : List (DomId × Fpn))
  /-- An abandonment and the updates it has still to offer. -/
  | abandoning (rest : List PartUpdate)
  deriving DecidableEq, Repr

/-- The Entry Unit. -/
structure EntryUnit where
  switchA : SampledInput
  switchB : SampledInput
  windowA : Window
  windowB : Window
  /-- The entry domain, or NONE. -/
  domain : Option DomId
  /-- The entry limit L (R96). -/
  limit : BitVec 16
  /-- The Entry List, oldest first. -/
  list : List EntryRec
  /-- The waiting operations, in the order they arrived. -/
  waiting : List EntryOp
  work : Option EntryWork
  deriving DecidableEq, Repr

/-! ## Run Clock -/

/-- The run clock (R27). -/
structure RunClock where
  counter : Nat
  compare : Nat
  deriving DecidableEq, Repr

/-! ## Back Controller -/

/-- Timing parameters, in back clocks (R120); WL is RL − 1. -/
structure Timing where
  tRCD : Nat
  tRP : Nat
  tRAS : Nat
  tRRD : Nat
  tFAW : Nat
  rl : Nat
  tWR : Nat
  tWTR : Nat
  tRTP : Nat
  tRFC : Nat
  tREFI : Nat
  tIDLE : Nat
  deriving DecidableEq, Repr

/-- Origins of back requests (R130). A background request also names the run of the operation it belongs to (MODEL). -/
inductive Origin where
  | front
  | walk
  | update
  | entry
  | fill
  | background (run : Nat)
  deriving DecidableEq, Repr

/-- A Back Queue request (R129). Rank, bank, row and column follow from the back line (R24). -/
structure BackReq where
  /-- MODEL: names the request to its requester. -/
  id : Nat
  write : Bool
  line : BackLine
  origin : Origin
  beat : Beat
  data : Line
  masks : Marks
  passOver : Nat
  urgent : Bool
  inService : Bool
  deriving DecidableEq, Repr

/-- A maker whose request waits to enter the Back Queue (R131). -/
inductive Waiter where
  | front (tag : Tag)
  | walk (d : DomId) (f : Fpn)
  | updateRead (k : MapLine)
  | updateWrite (k : MapLine)
  | entry
  | liveFill
  | fill
  | background
  deriving DecidableEq, Repr

/-- A column command whose burst has not been handed over: its request, the clock its burst begins at and the one it ends at, 4
later, at which its completion is reported (R118, R136, R137; log entry 49). -/
structure Burst where
  req : BackReq
  start : Nat
  finish : Nat
  deriving DecidableEq, Repr

/-- A bank record (R119): IDLE when it has no open row. -/
structure Bank where
  row : Option (BitVec 14)
  lastAct : Option Nat
  lastPre : Option Nat
  lastRead : Option Nat
  lastWrite : Option Nat
  lastCol : Option Nat
  /-- Its last column command was issued with an automatic precharge that has not yet happened (R123): the clock from
  which the conditions of a precharge are asked. -/
  closing : Option Nat
  deriving DecidableEq, Repr

/-- A rank record (R119). -/
structure Rank where
  /-- Clocks of the last four activations, oldest first. -/
  history : List Nat
  state : RefreshState
  due : Nat
  timer : Nat
  lastRefresh : Option Nat
  /-- MODEL: how often the timer has returned to 0 without REFRESH_ACCRUAL having taken it yet. -/
  accrued : Nat
  deriving DecidableEq, Repr

/-- The data path record: the burst of the most recent column command (R119). -/
structure LastBurst where
  rank : Fin 2
  write : Bool
  finish : Nat
  deriving DecidableEq, Repr

/-- START-UP (R140): whether it takes the DRAM through its power-up sequence, and the clock it began. -/
structure StartUp where
  powerUp : Bool
  start : Nat
  deriving DecidableEq, Repr

/-- The Back Controller. -/
structure BackCtl where
  /-- The Back Queue, oldest first. -/
  queue : List BackReq
  /-- The service list, by request, in the order selected. -/
  service : List Nat
  /-- Makers whose requests wait to enter, in the order they began to wait. -/
  waiting : List Waiter
  /-- Bursts of issued column commands, in the order of their commands. -/
  bursts : List Burst
  /-- Bank records of rank 0, then of rank 1. -/
  banks : Vector Bank 16
  ranks : Vector Rank 2
  dataPath : Option LastBurst
  /-- The current back clock (MODEL: counted from first battery connection). -/
  clock : Nat
  /-- The clock at which the command path last carried a command. -/
  lastCommand : Option Nat
  startUp : Option StartUp
  timing : Timing
  /-- MODEL: the next request's name. -/
  nextId : Nat
  deriving DecidableEq, Repr

/-! ## Tamper Monitor -/

/-- A channel's settings, count and last code (R145 to R148). -/
structure Channel where
  enable : Bool
  low : Byte
  high : Byte
  depth : Nat
  count : Nat
  last : Option Byte
  /-- MODEL: a detection that CHANNEL_DETECTION has still to take, true when HIGH. -/
  detected : Option Bool
  deriving DecidableEq, Repr

/-- Converter modes (R145). -/
inductive ConvMode where
  | sweep
  | focus (c : Fin 8)
  deriving DecidableEq, Repr

/-- A mesh's settings, drive and sense (R150 to R153). -/
structure Mesh where
  enable : Bool
  period : Nat
  dead : Nat
  tol : Nat
  depth : Nat
  phase : Nat
  interval : Nat
  referenced : Bool
  count : Nat
  /-- MODEL: a detection that MESH_DETECTION has still to take. -/
  detected : Bool
  deriving DecidableEq, Repr

/-- The tamper record (R157); cause `c` of R204's numbering is mark `c` of the set. -/
structure TamperRecord where
  valid : Bool
  first : Option Cause
  time : BitVec 32
  causes : BitVec 21
  further : BitVec 8
  deriving DecidableEq, Repr

/-- The Tamper Monitor. -/
structure Monitor where
  channels : Vector Channel 8
  mode : ConvMode
  /-- The channel last converted. -/
  lastConv : Option (Fin 8)
  pace : Nat
  /-- The result history, oldest first, at most 4. -/
  history : List (Fin 8 × Byte)
  meshes : Vector Mesh 2
  /-- LID: on is OPEN. -/
  lid : SampledInput
  /-- PANEL: on is PRESSED. -/
  panel : SampledInput
  testSet : BitVec 21
  record : TamperRecord
  seconds : BitVec 32
  /-- Monitor clocks counted towards the next second, 0 to 4095 (R156). -/
  secondClocks : Nat
  /-- Mesh clocks counted towards the next monitor clock, 0 to 7 (00_scope, Time). -/
  meshClocks : Nat
  deriving DecidableEq, Repr

/-! ## State Unit, Event Unit, Supervisor Link -/

/-- Background progress (R163). -/
structure Background where
  op : BgOp
  next : Nat
  completed : Nat
  /-- MODEL: names the run of the operation, so that a late completion of an earlier one is told apart. -/
  run : Nat
  deriving DecidableEq, Repr

/-- The State Unit (R163). -/
structure StateUnit where
  cabinet : CabState
  sub : ZeroSub
  scrubOn : Bool
  power : Power
  /-- The level of the RST line: asserted (R164). -/
  rst : Bool
  bg : Background
  deriving DecidableEq, Repr

/-- A refusal report (R182). -/
structure Report where
  kind : Kind
  reason : Reason
  region : Region
  dom : DomId
  priv : Privilege
  dir : Direction
  line : FrontLine
  tag : Tag
  deriving DecidableEq, Repr

/-- The Event Unit (R183 to R189). -/
structure EventUnit where
  /-- The refusal record; `none` is an empty record. -/
  record : Option Report
  overwritten : Bool
  count : BitVec 16
  flags : BitVec 11
  enables : BitVec 11
  expired : BitVec 64
  deriving DecidableEq, Repr

/-- The answer slot (R195). -/
inductive AnswerSlot where
  | empty
  | waiting
  | ready (code : AnsCode) (data : List Byte)
  deriving DecidableEq, Repr

/-- The Supervisor Link. -/
structure SupLink where
  slot : AnswerSlot
  /-- The address strap as sampled (R192). -/
  strap : BitVec 2
  /-- MODEL: whether the part acknowledged its address in the last transfer. -/
  acked : Bool
  /-- MODEL: the bytes the part returned in the last read transfer. -/
  sent : List Byte
  deriving DecidableEq, Repr

/-! ## Back memory and what comes from outside -/

/-- Back memory: (address, byte) pairs, addresses strictly rising, none equal to what an unlisted address reads as. -/
structure Memory where
  /-- MODEL: how many times the memory has lost its power. -/
  era : Nat
  cells : List Host.Cell
  deriving DecidableEq, Repr

/-- The input levels a clock edge of the slow oscillator finds (MODEL). -/
structure Inputs where
  custA : Bool
  custB : Bool
  lidOpen : Bool
  panelPressed : Bool
  /-- The eight analog inputs, in nanovolts. -/
  analog : Vector Int 8
  /-- A rising crossing at each mesh return. -/
  crossing0 : Bool
  crossing1 : Bool
  deriving DecidableEq, Repr

/-- What comes to the part from outside without a row of the table (MODEL). -/
inductive Arrival where
  /-- An edge of the back clock. -/
  | back
  /-- An edge of the mesh clock, with the inputs it finds. -/
  | mesh (i : Inputs)
  /-- The end of a write transfer of the link, with the bytes that followed its address (R193). -/
  | transfer (addr : BitVec 7) (bytes : List Byte)
  deriving DecidableEq, Repr

/-! ## The state -/

/-- The state of the HK-480. -/
structure State where
  front : FrontPort
  xlat : Translation
  maps : MapUnit
  doms : Vector DomRec 64
  seeds : SeedStore
  entry : EntryUnit
  run : RunClock
  back : BackCtl
  mon : Monitor
  cab : StateUnit
  ev : EventUnit
  link : SupLink
  mem : Memory
  /-- The commands that wait, first in, first out. -/
  pending : List Instr
  /-- MODEL: the clock edges and link transfers to come, which the machine takes while no command waits. -/
  arrivals : List Arrival
  deriving DecidableEq, Repr

/-- Faults: there is none. Every command has an effect the manual gives, in every state, so no step stops. -/
inductive Fault where
  deriving DecidableEq, Repr

/-- Refusals of the model. -/
inductive Refusal where
  /-- Raised by `exec` alone, for a command that has no meaning yet; safe. No arm raises it. -/
  | notModelled (mnemonic : String)
  deriving DecidableEq, Repr

/-! ## Values at reset -/

/-- The Front Port after reset (R17), with this copy of PAB. -/
def FrontPort.reset (pab : PabIndex) : FrontPort :=
  { slots := [], held := none, pabCopy := pab, response := none }

/-- The fields of a buffer entry after reset; the manual gives them no value there (log entry 33). -/
def Page.reset : Page :=
  { dom := 0#6, fpn := 0#14, bpn := 0#14, cls := .dataRw, kernelOnly := false, life := .empty }

/-- An entry of either buffer after reset: it holds no page (R71). -/
def Held.reset : Held := { valid := false, fields := .reset }

/-- The Translation Unit after reset (R71). -/
def Translation.reset : Translation :=
  { fixed := Vector.replicate 16 { held := .reset, lock := false, used := false }
    sets := Vector.replicate 256 { way0 := .reset, way1 := .reset, recentOne := false }
    walks := []
    waiting := [] }

/-- The Map Unit after reset (R33, R44). -/
def MapUnit.reset : MapUnit := { updates := [], requests := [], together := [], fills := [], roomOrder := [] }

/-- A domain record at first battery connection (R93): VACANT, or CLOSED for domain 0, whose stored state is not read. -/
def DomRec.reset : DomRec :=
  { state := .vacant, epoch := 0#8, lease := 0#16, staged := none, ending := false }

/-- The Seed Store at first battery connection (R74, R5): no seed, PAB 0x7800_0000. -/
def SeedStore.reset : SeedStore :=
  { root := none, domains := Vector.replicate 64 none, pab := 15#4, clearPending := false, made := 0 }

/-- A sampled input at first battery connection (R94, R154). -/
def SampledInput.reset : SampledInput := { on := false, count := 0 }

/-- A custodian window after reset (R97). -/
def Window.reset : Window := { state := .shut, remaining := 0#16, ending := false }

/-- The Entry Unit at first battery connection (R117). -/
def EntryUnit.reset : EntryUnit :=
  { switchA := .reset, switchB := .reset, windowA := .reset, windowB := .reset
    domain := none, limit := 900#16, list := [], waiting := [], work := none }

/-- The run clock at first battery connection (R28). -/
def RunClock.reset : RunClock := { counter := 0, compare := 4095 }

/-- The default timing parameters (R120). -/
def Timing.reset : Timing :=
  { tRCD := 6, tRP := 6, tRAS := 18, tRRD := 4, tFAW := 24, rl := 6, tWR := 6, tWTR := 4, tRTP := 4
    tRFC := 104, tREFI := 3120, tIDLE := 32 }

/-- A bank record that holds nothing (R139). -/
def Bank.reset : Bank :=
  { row := none, lastAct := none, lastPre := none, lastRead := none, lastWrite := none, lastCol := none
    closing := none }

/-- A rank record after start-up (R140). -/
def Rank.reset : Rank := { history := [], state := .normal, due := 0, timer := 0, lastRefresh := none, accrued := 0 }

/-- The Back Controller when START-UP begins (R140), keeping its timing parameters, its clock and its request names. -/
def BackCtl.restart (timing : Timing) (clock nextId : Nat) (startUp : Option StartUp) : BackCtl :=
  { queue := [], service := [], waiting := [], bursts := []
    banks := Vector.replicate 16 .reset, ranks := Vector.replicate 2 .reset, dataPath := none
    clock := clock, lastCommand := none, startUp := startUp, timing := timing, nextId := nextId }

/-- A channel at first battery connection (R148). -/
def Channel.reset : Channel :=
  { enable := true, low := 0#8, high := 255#8, depth := 3, count := 0, last := none, detected := none }

/-- A mesh at first battery connection (R150, R153). -/
def Mesh.reset : Mesh :=
  { enable := true, period := 64, dead := 2, tol := 4, depth := 3, phase := 0, interval := 0
    referenced := false, count := 0, detected := false }

/-- A tamper record that is not valid (R157). -/
def TamperRecord.reset : TamperRecord :=
  { valid := false, first := none, time := 0#32, causes := 0#21, further := 0#8 }

/-- The Tamper Monitor at first battery connection (R162). -/
def Monitor.reset : Monitor :=
  { channels := Vector.replicate 8 .reset, mode := .sweep, lastConv := none, pace := 0, history := []
    meshes := Vector.replicate 2 .reset, lid := .reset, panel := .reset, testSet := 0#21, record := .reset
    seconds := 0#32, secondClocks := 0, meshClocks := 0 }

/-- No background operation (R163). -/
def Background.reset : Background := { op := .idle, next := 0, completed := 0, run := 0 }

/-- The State Unit at first battery connection with PGOOD high (R180). -/
def StateUnit.reset : StateUnit :=
  { cabinet := .blank, sub := .quiet, scrubOn := true, power := .mains, rst := false, bg := .reset }

/-- The Event Unit at mains return (R190): MAINS-RETURN set, and TAMPER when the tamper record is valid. -/
def EventUnit.atReturn (tamper : Bool) : EventUnit :=
  { record := none, overwritten := false, count := 0#16
    flags := if tamper then 0x480#11 else 0x400#11, enables := BitVec.allOnes 11, expired := 0#64 }

/-- The Event Unit without power (R190): nothing kept. -/
def EventUnit.lost : EventUnit :=
  { record := none, overwritten := false, count := 0#16, flags := 0#11, enables := BitVec.allOnes 11, expired := 0#64 }

/-- The Supervisor Link after reset (R199), with the strap it samples. -/
def SupLink.reset (strap : BitVec 2) : SupLink := { slot := .empty, strap := strap, acked := false, sent := [] }

/-- Back memory in which nothing is written, in era `n`. -/
def Memory.blank (n : Nat) : Memory := { era := n, cells := [] }

/-- The machine right after reset: first battery connection with PGOOD high, taken as a mains return (R180). -/
def State.reset : State :=
  { front := .reset 15#4
    xlat := .reset
    maps := .reset
    doms := Vector.replicate 64 .reset
    seeds := .reset
    entry := .reset
    run := .reset
    back := .restart .reset 0 0 (some { powerUp := true, start := 0 })
    mon := .reset
    cab := .reset
    ev := .atReturn false
    link := .reset 0#2
    mem := .blank 0
    pending := []
    arrivals := [] }

/-! ## One update for each block -/

/-- Apply `f` to the Front Port. -/
def State.onFront (f : FrontPort → FrontPort) (s : State) : State := { s with front := f s.front }
/-- Apply `f` to the Translation Unit. -/
def State.onXlat (f : Translation → Translation) (s : State) : State := { s with xlat := f s.xlat }
/-- Apply `f` to the Map Unit. -/
def State.onMaps (f : MapUnit → MapUnit) (s : State) : State := { s with maps := f s.maps }
/-- Apply `f` to the Domain Table. -/
def State.onDoms (f : Vector DomRec 64 → Vector DomRec 64) (s : State) : State := { s with doms := f s.doms }
/-- Apply `f` to the Seed Store. -/
def State.onSeeds (f : SeedStore → SeedStore) (s : State) : State := { s with seeds := f s.seeds }
/-- Apply `f` to the Entry Unit. -/
def State.onEntry (f : EntryUnit → EntryUnit) (s : State) : State := { s with entry := f s.entry }
/-- Apply `f` to the run clock. -/
def State.onRun (f : RunClock → RunClock) (s : State) : State := { s with run := f s.run }
/-- Apply `f` to the Back Controller. -/
def State.onBack (f : BackCtl → BackCtl) (s : State) : State := { s with back := f s.back }
/-- Apply `f` to the Tamper Monitor. -/
def State.onMon (f : Monitor → Monitor) (s : State) : State := { s with mon := f s.mon }
/-- Apply `f` to the State Unit. -/
def State.onCab (f : StateUnit → StateUnit) (s : State) : State := { s with cab := f s.cab }
/-- Apply `f` to the Event Unit. -/
def State.onEv (f : EventUnit → EventUnit) (s : State) : State := { s with ev := f s.ev }
/-- Apply `f` to the Supervisor Link. -/
def State.onLink (f : SupLink → SupLink) (s : State) : State := { s with link := f s.link }
/-- Apply `f` to back memory. -/
def State.onMem (f : Memory → Memory) (s : State) : State := { s with mem := f s.mem }

end Sys2Proof.Machine
end

