-- ==== Sys2Proof/Machine/Operands.lean ====
section
/-! DEFINITION. The forms in which commands and back traffic name things: the address arithmetic of chapter 2, the
descriptor layout of R203, the argument bytes of R204, and the byte order of every readout. -/

namespace Sys2Proof.Machine

/-! ## Front addresses -/

/-- The front line address (R1). -/
def frontAddr (l : FrontLine) : Nat := l.toNat * 64

/-- The region of a front line (R4). -/
def regionOf (l : FrontLine) : Region :=
  let a := frontAddr l
  if a < 0x80000000 then .plain
  else if a < 0x84000000 then .key
  else if a < 0x84800000 then .map
  else if a < 0x88000000 then .unclaimed
  else if a < 0x8C800000 then .raw
  else .unclaimed

/-- The offset of a front line in its window (R4, R18, R20, R21). -/
def windowOffset (l : FrontLine) : Nat :=
  match regionOf l with
  | .plain => frontAddr l
  | .key => frontAddr l - 0x80000000
  | .map => frontAddr l - 0x84000000
  | .raw => frontAddr l - 0x88000000
  | .unclaimed => 0

/-- FPN of a key-window line (R18). -/
def keyFpn (l : FrontLine) : Fpn := BitVec.ofNat 14 (windowOffset l / 4096)

/-- Line within its page of a key-window line (R18). -/
def keyPageIndex (l : FrontLine) : PageLine := BitVec.ofNat 6 (windowOffset l / 64 % 64)

/-- Map line of a map-window line (R20). -/
def mapWindowLine (l : FrontLine) : MapLine := BitVec.ofNat 17 (windowOffset l / 64)

/-- Map line that a raw-window line lands in, if it lands in the map (R21). -/
def rawMapLine (l : FrontLine) : Option MapLine :=
  if windowOffset l < 0x04000000 then none
  else some (BitVec.ofNat 17 ((windowOffset l - 0x04000000) / 64))

/-! ## Back addresses -/

/-- PAB as a back address (R5). -/
def pabBase (p : PabIndex) : Nat := p.toNat * 0x08000000

/-- The back line at a back address. -/
def backLineAt (a : Nat) : BackLine := BitVec.ofNat 25 (a / 64)

/-- The back line of a PLAIN line: the same address (R4). -/
def plainLine (l : FrontLine) : BackLine := backLineAt (frontAddr l)

/-- The back line of a raw-window line (R21). -/
def rawLine (p : PabIndex) (l : FrontLine) : BackLine := backLineAt (pabBase p + windowOffset l)

/-- Whether a back line lies in the protected area (R5, R9). -/
def inProtectedArea (p : PabIndex) (b : BackLine) : Bool :=
  let a := b.toNat * 64
  decide (pabBase p ≤ a ∧ a < pabBase p + 0x04800000)

/-- The descriptor number of a pair (R19). -/
def descNumber (d : DomId) (f : Fpn) : Nat := d.toNat * 16384 + f.toNat

/-- The map line of a pair (R19). -/
def mapLineOf (d : DomId) (f : Fpn) : MapLine := BitVec.ofNat 17 (descNumber d f / 8)

/-- The index of a pair's descriptor within its map line (R19). -/
def descIndex (f : Fpn) : Fin 8 := ⟨f.toNat % 8, by omega⟩

/-- The back line of a map line (R19). -/
def mapBackLine (p : PabIndex) (k : MapLine) : BackLine := backLineAt (pabBase p + 0x04000000 + k.toNat * 64)

/-- The back line of line `l` of back page `b` (R22). -/
def keyBackLine (p : PabIndex) (b : Bpn) (l : PageLine) : BackLine :=
  backLineAt (pabBase p + b.toNat * 4096 + l.toNat * 64)

/-- The domain whose descriptors a map line holds (R20). -/
def mapLineDomain (k : MapLine) : DomId := BitVec.ofNat 6 (k.toNat / 2048)

/-- The FPN of descriptor `i` of a map line (R20). -/
def mapLineFpn (k : MapLine) (i : Fin 8) : Fpn := BitVec.ofNat 14 ((8 * k.toNat) % 16384 + i.val)

/-- The eight pairs of a map line (R20). -/
def mapLinePairs (k : MapLine) : List (DomId × Fpn) :=
  (List.finRange 8).map fun i => (mapLineDomain k, mapLineFpn k i)

/-- The Set Buffer index of a pair (R23): `f mod 256 XOR 4 × rev6 d`. -/
def setIndex (d : DomId) (f : Fpn) : BitVec 8 := f.setWidth 8 ^^^ (d.reverse ++ 0#2)

/-- The DRAM fields of a back line (R24). -/
structure DramPlace where
  rank : Fin 2
  bank : Fin 8
  row : BitVec 14
  column : Nat
  deriving DecidableEq, Repr

/-- Divide a back line's address into its DRAM fields (R24). -/
def dramPlace (b : BackLine) : DramPlace :=
  let a := b.toNat * 64
  { rank := ⟨a / 0x10000 % 2, by omega⟩
    bank := ⟨((a / 0x2000 % 8) ^^^ (a / 0x20000 % 8)) % 8, by omega⟩
    row := BitVec.ofNat 14 (a / 0x20000)
    column := a / 8 % 1024 }

/-- The place of a bank's record among the 16. -/
def bankIx (r : Fin 2) (b : Fin 8) : Fin 16 := ⟨r.val * 8 + b.val, by omega⟩

/-- The place of a domain's record. -/
def domIx (d : DomId) : Fin 64 := ⟨d.toNat, d.isLt⟩

/-! ## Descriptors -/

/-- The fields of a descriptor, codes that name nothing included (R30). -/
structure Desc where
  valid : BitVec 1
  cls : BitVec 2
  kernelOnly : BitVec 1
  life : BitVec 3
  cust : BitVec 1
  epoch : BitVec 8
  bpn : BitVec 14
  owner : BitVec 34
  deriving DecidableEq, Repr

/-- Read a descriptor's 64 bits (R203). -/
def Desc.ofBits (x : BitVec 64) : Desc :=
  { valid := x.extractLsb' 0 1, cls := x.extractLsb' 1 2, kernelOnly := x.extractLsb' 3 1
    life := x.extractLsb' 4 3, cust := x.extractLsb' 7 1, epoch := x.extractLsb' 8 8
    bpn := x.extractLsb' 16 14, owner := x.extractLsb' 30 34 }

/-- Write a descriptor's 64 bits (R203). -/
def Desc.toBits (d : Desc) : BitVec 64 :=
  d.owner ++ d.bpn ++ d.epoch ++ d.cust ++ d.life ++ d.kernelOnly ++ d.cls ++ d.valid

/-- The code of a class (R203). -/
def PageClass.code : PageClass → BitVec 2
  | .dataRw => 0#2
  | .dataRo => 1#2
  | .key => 2#2

/-- The class a code names (R203). -/
def PageClass.ofCode (c : BitVec 2) : Option PageClass :=
  if c = 0#2 then some .dataRw else if c = 1#2 then some .dataRo else if c = 2#2 then some .key else none

/-- The code of a lifecycle (R203). -/
def Lifecycle.code : Lifecycle → BitVec 3
  | .empty => 0#3
  | .first => 1#3
  | .half => 2#3
  | .second => 3#3
  | .live => 4#3
  | .retired => 5#3

/-- The lifecycle a code names (R203). -/
def Lifecycle.ofCode (c : BitVec 3) : Option Lifecycle :=
  if c = 0#3 then some .empty else if c = 1#3 then some .first else if c = 2#3 then some .half
  else if c = 3#3 then some .second else if c = 4#3 then some .live else if c = 5#3 then some .retired else none

/-- The code of a first custodian (R203). -/
def custCode : Custodian → BitVec 1
  | .a => 0#1
  | .b => 1#1

/-- The eight descriptors of a line, index `i` in bytes `8i` to `8i + 7`, byte `j` in bits `8j` up (R203). -/
def lineDescs (l : Line) : Vector (BitVec 64) 8 :=
  Vector.ofFn fun i =>
    l[8 * i.val + 7] ++ l[8 * i.val + 6] ++ l[8 * i.val + 5] ++ l[8 * i.val + 4] ++
      l[8 * i.val + 3] ++ l[8 * i.val + 2] ++ l[8 * i.val + 1] ++ l[8 * i.val]

/-- The line that holds eight descriptors (R203). -/
def descsLine (v : Vector (BitVec 64) 8) : Line :=
  Vector.ofFn fun j => (v[j.val / 8]'(by omega)).extractLsb' (8 * (j.val % 8)) 8

/-- What a usable descriptor lets a transaction go on with (R50, R60): none for an unusable one (R31). For a DATA class
the lifecycle is EMPTY's code, whatever the field holds. -/
def Desc.page (x : Desc) (d : DomId) (f : Fpn) (epoch : Epoch) : Option Page :=
  if x.valid = 1#1 ∧ x.epoch = epoch then
    match PageClass.ofCode x.cls with
    | none => none
    | some .key => (Lifecycle.ofCode x.life).map fun life =>
        { dom := d, fpn := f, bpn := x.bpn, cls := .key, kernelOnly := x.kernelOnly = 1#1, life := life }
    | some c => some { dom := d, fpn := f, bpn := x.bpn, cls := c, kernelOnly := x.kernelOnly = 1#1, life := .empty }
  else none

/-- Usability of a descriptor under its domain's current epoch (R31). -/
def Desc.usable (x : Desc) (epoch : Epoch) : Bool := (x.page 0#6 0#14 epoch).isSome

/-! ## Lines -/

/-- The bytes of `new` where the mark is set, those of `old` elsewhere (R15, R37). -/
def mergeLine (old new : Line) (marks : Marks) : Line :=
  Vector.ofFn fun i => if marks.getLsbD i.val then new[i] else old[i]

/-- The exclusive-or of two lines, byte by byte (R107). -/
def xorLine (x y : Line) : Line := Vector.ofFn fun i => x[i] ^^^ y[i]

/-- Beat `i` of a line: bytes `8i` up, the lowest byte least significant. -/
def lineBeat (l : Line) (i : Fin 8) : BitVec 64 := (lineDescs l)[i]

/-- The eight beats of a read in burst order, from the starting beat and wrapping (R13). -/
def burstBeats (l : Line) (start : Beat) : List (BitVec 64) :=
  (List.finRange 8).map fun i => lineBeat l ⟨(start.toNat + i.val) % 8, by omega⟩

/-! ## Bytes of the supervisor link -/

/-- Argument byte `i` of a frame, 0 where there is none. -/
def argByte (args : List Byte) (i : Nat) : Byte := args.getD i 0#8

/-- A two-byte argument, low byte first (R204). -/
def argWord (args : List Byte) (i : Nat) : BitVec 16 := argByte args (i + 1) ++ argByte args i

/-- A number as `n` bytes, low byte first (R204). -/
def bytesOf (n v : Nat) : List Byte := (List.range n).map fun i => BitVec.ofNat 8 (v / 256 ^ i)

/-- A bit as a number. -/
def bit (b : Bool) : Nat := if b then 1 else 0

/-- The answer byte (R204). -/
def AnsCode.byte : AnsCode → Byte
  | .none => 0#8
  | .accepted => 1#8
  | .state => 2#8
  | .range => 3#8
  | .busy => 4#8
  | .full => 5#8
  | .absent => 6#8
  | .length => 7#8
  | .unknown => 8#8

/-- The number of a cause (R204). -/
def Cause.num : Cause → Nat
  | .chLow c => c.val
  | .chHigh c => 8 + c.val
  | .mesh m => 16 + m.val
  | .lid => 18
  | .panel => 19
  | .command => 20

/-- The mark of a cause in a cause set (R204). -/
def Cause.mark (c : Cause) : BitVec 21 := BitVec.ofNat 21 (2 ^ c.num)

/-! ## Commands of the supervisor link -/

/-- The CONFIGURE row of a frame: that of the item its first argument byte names. A frame that names none of the ten items
goes to the first row, which refuses it as any of them does (R201 step 1; log entry 26). -/
def configureRow (f : Frame) : Instr :=
  match (argByte f.args 0).toNat with
  | 2 => .configureBackTiming f
  | 3 => .configurePagePolicy f
  | 4 => .configureRunCompare f
  | 5 => .configureEntryLimit f
  | 6 => .configureChannelSettings f
  | 7 => .configureMeshSettings f
  | 8 => .configureConverterMode f
  | 9 => .configureScrubSetting f
  | 10 => .configureEventEnables f
  | _ => .configurePab f

/-- The command table of section 11.4: each of the 29 codes with the command it picks. -/
def commandTable : List (Byte × (Frame → Instr)) :=
  [(0x01#8, Instr.status), (0x02#8, configureRow), (0x10#8, Instr.commission), (0x11#8, Instr.recommission), (0x12#8, Instr.resume),
   (0x13#8, Instr.clearMap), (0x14#8, Instr.zeroise)] ++
  [(0x20#8, Instr.enrol), (0x21#8, Instr.erase), (0x22#8, Instr.openRun), (0x23#8, Instr.extendRun), (0x24#8, Instr.closeRun), (0x25#8, Instr.readDomain),
   (0x26#8, Instr.readExpired), (0x27#8, Instr.clearExpired)] ++
  [(0x30#8, Instr.setEntry), (0x31#8, Instr.abandonEntry), (0x32#8, Instr.readEntry), (0x40#8, Instr.lock), (0x41#8, Instr.unlock),
   (0x42#8, Instr.demapPage), (0x43#8, Instr.demapDomain), (0x44#8, Instr.demapAll)] ++
  [(0x50#8, Instr.readRefusal), (0x51#8, Instr.clearRefusal), (0x52#8, Instr.readTamper), (0x53#8, Instr.ackTamper), (0x54#8, Instr.readResults),
   (0x55#8, Instr.clearEvents)]

/-- The 29 command codes (R194, section 11.4). -/
def commandCodes : List Byte := commandTable.map fun e => e.1

/-- The command a code picks: UNKNOWN for a code that the table does not list (R194). -/
def commandOf (code : Byte) (f : Frame) : Instr :=
  match commandTable.find? fun e => e.1 == code with
  | some e => e.2 f
  | none => .unknown code f

/-- The command of a write transfer, from the bytes after its address: the first is the command code, the others are the
arguments. A transfer that ends with no byte after the address is no command (R193). -/
def transferCommand (addr : BitVec 7) (bytes : List Byte) : Option Instr :=
  match bytes with
  | [] => none
  | code :: args => some (commandOf code { addr := addr, args := args })

end Sys2Proof.Machine
end

