-- ==== Sys2Proof/Machine/Flags.lean ====
section
/-! DEFINITION. Event flags, ALERT, refusal reports and whether the main domain has power (chapters 9 and 10). -/

namespace Sys2Proof.Machine

/-- The main domain works: mains power is present and RST is not asserted (R164). -/
def live (s : State) : Bool := s.cab.power == .mains && !s.cab.rst

/-- The number of a flag (R204). -/
def Flag.num : Flag → Nat
  | .leaseExpired => 0
  | .runExtended => 1
  | .windowClosed => 2
  | .entryAbandoned => 3
  | .refusal => 4
  | .lockLost => 5
  | .bufferSkip => 6
  | .tamper => 7
  | .scrubDone => 8
  | .clearDone => 9
  | .mainsReturn => 10

/-- The mark of a flag in a flag string (R204). -/
def Flag.mark (f : Flag) : BitVec 11 := BitVec.ofNat 11 (2 ^ f.num)

/-- The Event Unit with a flag set (R186). -/
def EventUnit.raise (f : Flag) (e : EventUnit) : EventUnit := { e with flags := e.flags ||| f.mark }

/-- Raise a flag (R186). A flag raised while the main domain does not work is not kept. -/
def raise (f : Flag) (s : State) : State := if live s then s.onEv (.raise f) else s

/-- Raise a flag when `c` holds. -/
def raiseIf (c : Bool) (f : Flag) (s : State) : State := if c then raise f s else s

/-- The rank of a refusal kind (R181). -/
def Kind.rank : Kind → Nat
  | .held => 1
  | .unready => 2
  | .nowhere => 3
  | .closed => 4
  | .absent => 5
  | .shadow => 6
  | .denied => 7

/-- The front status a refusal of a kind is answered with (R181). -/
def Kind.status : Kind → Status
  | .held => .done
  | .unready => .unready
  | .nowhere => .nowhere
  | .closed => .closed
  | .absent => .absent
  | .shadow => .shadow
  | .denied => .denied

/-- The code of a reason (R204). -/
def Reason.code : Reason → Nat
  | .noReason => 0
  | .classRule => 1
  | .privilege => 2
  | .domain => 3
  | .lifecycle => 4
  | .noWindow => 5
  | .ambiguous => 6
  | .partialWrite => 7
  | .custodian => 8
  | .line => 9
  | .entryFull => 10

/-- The code of a region (R204). -/
def Region.code : Region → Nat
  | .plain => 0
  | .key => 1
  | .map => 2
  | .raw => 3
  | .unclaimed => 4

/-- The refusal record after a report (R183). -/
def recordAfter (old : Option Report) (r : Report) : Option Report :=
  match old with
  | none => some r
  | some o => if o.kind.rank < r.kind.rank then some r else some o

/-- The Event Unit takes a refusal report: record, count and REFUSAL (R183, R184, R186). -/
def EventUnit.take (r : Report) (e : EventUnit) : EventUnit :=
  { e with
    record := recordAfter e.record r
    overwritten := e.record.isSome
    count := if e.count = 65535#16 then e.count else e.count + 1#16
    flags := e.flags ||| Flag.refusal.mark }

/-- A refusal report reaches the Event Unit (R182). -/
def report (r : Report) (s : State) : State := s.onEv (.take r)

end Sys2Proof.Machine
end

