-- ==== Sys2Proof/Machine/Memory.lean ====
section
/-! DEFINITION. Back memory: one byte, one line, and the canonical form that every write keeps (R118). -/

namespace Sys2Proof.Machine

/-- What a byte reads as that nothing has written since the memory last gained power. Before the first loss of power it
is 0 (DESIGN CHOICE, unsafe); after a loss it is free (R29, R178). Log entry 2. -/
def unwritten (era addr : Nat) : Byte := if era = 0 then 0#8 else Config.dramByte era addr

/-- Read a byte of a list of cells. -/
def readCells (era : Nat) : List Host.Cell → Nat → Byte
  | [], a => unwritten era a
  | (b, w) :: rest, a => if a = b then w else readCells era rest a

/-- Write a byte into a list of cells, keeping the canonical form. -/
def writeCells (era : Nat) : List Host.Cell → Nat → Byte → List Host.Cell
  | [], a, v => if v = unwritten era a then [] else [(a, v)]
  | (b, w) :: rest, a, v =>
    if a < b then (if v = unwritten era a then (b, w) :: rest else (a, v) :: (b, w) :: rest)
    else if a = b then (if v = unwritten era a then rest else (a, v) :: rest)
    else (b, w) :: writeCells era rest a v

/-- The byte at a back address. -/
def Memory.readByte (m : Memory) (a : Nat) : Byte := readCells m.era m.cells a

/-- Write the byte at a back address. -/
def Memory.writeByte (m : Memory) (a : Nat) (v : Byte) : Memory := { m with cells := writeCells m.era m.cells a v }

/-- The back address of a back line. -/
def backAddr (b : BackLine) : Nat := b.toNat * 64

/-- The line stored at a back line. -/
def Memory.readLine (m : Memory) (b : BackLine) : Line :=
  Vector.ofFn fun i => m.readByte (backAddr b + i.val)

/-- A back write: every byte whose mask is clear takes its new value (R118, R137). -/
def Memory.writeLine (m : Memory) (b : BackLine) (l : Line) (masks : Marks) : Memory :=
  (List.finRange 64).foldl
    (fun m i => if masks.getLsbD i.val then m else m.writeByte (backAddr b + i.val) l[i]) m

/-- The canonical form: addresses strictly rising, and no cell equal to what an unlisted address reads as. -/
abbrev Memory.wf (m : Memory) : Prop :=
  m.cells.Pairwise (fun x y => x.1 < y.1) ∧ ∀ c ∈ m.cells, c.2 ≠ unwritten m.era c.1

end Sys2Proof.Machine
end

