-- ==== Sys2Proof/Machine/Ops.lean ====
section
/-! DEFINITION. Operations that several families share: keys and the Line Cipher, domain states, front slots with their
responses and refusals, the Entry List, and the offering of requests to the Back Queue. -/

namespace Sys2Proof.Machine

/-! ## Keys and the Line Cipher -/

/-- The line key of a domain: it exists while the root seed and the domain's seed are both present (R75). -/
def lineKey (s : State) (d : DomId) : Option LineKey :=
  match s.seeds.root, s.seeds.domains[domIx d] with
  | some r, some x => some { root := r, domain := x }
  | _, _ => none

/-- The map key: the line key of domain 0 (R29). -/
def mapKey (s : State) : Option LineKey := lineKey s 0#6

/-- Encipher a line under a key, with its back line as tweak (R75). -/
def encipher (k : LineKey) (t : BackLine) (l : Line) : Line := Config.lineCipher k t l

/-- Decipher a line under a key, with its back line as tweak (R75). -/
def decipher (k : LineKey) (t : BackLine) (l : Line) : Line := (Config.lineCipher k t).symm l

/-! ## Domains -/

/-- The state of a domain: domain 0's follows the cabinet (R73). -/
def domState (s : State) (d : DomId) : DomState :=
  if d = 0#6 then (if s.cab.cabinet = .ready then .opened else .closed) else s.doms[domIx d].state

/-- The current epoch of a domain (R72). -/
def domEpoch (s : State) (d : DomId) : Epoch := s.doms[domIx d].epoch

/-- Whether the Seed Store holds a domain's seed (R72). -/
def seedPresent (s : State) (d : DomId) : Bool := s.seeds.domains[domIx d].isSome

/-- Change one domain record. -/
def onDom (d : DomId) (f : DomRec → DomRec) (s : State) : State :=
  s.onDoms fun v => v.set (domIx d).val (f v[domIx d]) (domIx d).isLt

/-- What admission and the re-check say of a key-window access: it goes on, or is refused CLOSED (R87, R90). -/
def admits (st : DomState) (dir : Direction) : Bool :=
  match st, dir with
  | .opened, _ => true
  | .closed, .write => true
  | _, _ => false

/-! ## Front slots -/

/-- The outstanding transaction with a tag, if there is one (R2). -/
def findSlot (s : State) (tag : Tag) : Option Slot := s.front.slots.find? fun x => x.txn.tag == tag

/-- Change the slot of a tag. -/
def onSlot (tag : Tag) (f : Slot → Slot) (s : State) : State :=
  s.onFront fun p => { p with slots := p.slots.map fun x => if x.txn.tag == tag then f x else x }

/-- Move the slot of a tag to a phase. -/
def setPhase (tag : Tag) (ph : Phase) (s : State) : State := onSlot tag (fun x => { x with phase := ph }) s

/-- Decide a transaction's status: its slot enters RESPONDING (R2). -/
def respond (tag : Tag) (st : Status) (data : Line) (s : State) : State := setPhase tag (.responding st data) s

/-- Answer DONE with no data. -/
def respondDone (tag : Tag) (s : State) : State := respond tag .done zeroLine s

/-- The report of a transaction's refusal (R182). -/
def refusalReport (k : Kind) (r : Reason) (x : Slot) : Report :=
  { kind := k, reason := r, region := x.region.getD (regionOf x.txn.line), dom := x.txn.dom, priv := x.txn.priv
    dir := x.txn.dir, line := x.txn.line, tag := x.txn.tag }

/-- Refuse a transaction: it is answered with the kind's status and zeros, and reported (R12, R182). -/
def refuse (tag : Tag) (k : Kind) (r : Reason) (s : State) : State :=
  match findSlot s tag with
  | none => s
  | some x => report (refusalReport k r x) (respond tag k.status zeroLine s)

/-! ## Entry List -/

/-- The Entry List entry of a page (R101). -/
def findEntry (s : State) (d : DomId) (f : Fpn) : Option EntryRec :=
  s.entry.list.find? fun e => e.dom == d && e.fpn == f

/-- Change the Entry List entry of a page. -/
def onEntryRec (d : DomId) (f : Fpn) (g : EntryRec → EntryRec) (s : State) : State :=
  s.onEntry fun u => { u with list := u.list.map fun e => if e.dom == d && e.fpn == f then g e else e }

/-- Remove the Entry List entry of a page; the others keep their order (R101). -/
def removeEntry (d : DomId) (f : Fpn) (s : State) : State :=
  s.onEntry fun u => { u with list := u.list.filter fun e => !(e.dom == d && e.fpn == f) }

/-- Set the operation in progress. -/
def setWork (w : Option EntryWork) (s : State) : State := s.onEntry fun u => { u with work := w }

/-! ## Buffered pages -/

/-- Whether a buffered page is that of a pair. -/
def Page.isOf (d : DomId) (f : Fpn) (p : Page) : Bool := p.dom == d && p.fpn == f

/-- The page a buffer entry holds, if its valid mark is set; the fields of one whose mark is clear are not used (R50). -/
def Held.page (h : Held) : Option Page := if h.valid then some h.fields else none

/-- A buffer entry that holds a page. -/
def Held.ofPage (p : Page) : Held := { valid := true, fields := p }

/-- Whether a buffer entry holds a page that `hit` names. -/
def Held.holds (hit : Page → Bool) (h : Held) : Bool := h.valid && hit h.fields

/-- A buffer entry that holds no page; its fields are kept (R50). -/
def Held.drop (h : Held) : Held := { h with valid := false }

/-- The page a Fixed Buffer entry holds (R50). -/
def FixedEntry.page (e : FixedEntry) : Option Page := e.held.page

/-- A Fixed Buffer entry that holds no page, with lock 0 and used 0 (R63, R65). -/
def FixedEntry.drop (e : FixedEntry) : FixedEntry := { held := e.held.drop, lock := false, used := false }

/-- Empty a Fixed Buffer entry whose page `hit` names (R63). -/
def FixedEntry.demap (hit : Page → Bool) (e : FixedEntry) : FixedEntry := if e.held.holds hit then e.drop else e

/-- Empty a Set Buffer way whose page `hit` names (R63). -/
def Held.demap (hit : Page → Bool) (h : Held) : Held := if h.holds hit then h.drop else h

/-- Empty the ways of a set whose pages `hit` names; the recency mark is left as it was (R63). -/
def SetRow.demap (hit : Page → Bool) (r : SetRow) : SetRow :=
  { r with way0 := r.way0.demap hit, way1 := r.way1.demap hit }

/-- A set whose two ways hold no page and whose recency mark names way 0 (R65). -/
def SetRow.drop (r : SetRow) : SetRow := { way0 := r.way0.drop, way1 := r.way1.drop, recentOne := false }

/-- Remove every buffered page that `hit` names (R63, R64). -/
def Translation.demap (hit : Page → Bool) (t : Translation) : Translation :=
  { t with fixed := t.fixed.map (FixedEntry.demap hit), sets := t.sets.map (SetRow.demap hit) }

/-- Whether such a demap removes a locked entry (R63). -/
def Translation.losesLock (hit : Page → Bool) (t : Translation) : Bool :=
  t.fixed.toList.any fun e => e.lock && e.held.holds hit

/-- A demap of the pages `hit` names, with LOCK-LOST when it removes a locked entry (R63, R64). -/
def demapBy (hit : Page → Bool) (s : State) : State :=
  raiseIf (s.xlat.losesLock hit) .lockLost (s.onXlat (.demap hit))

/-- A page demap (R63). -/
def pageDemap (d : DomId) (f : Fpn) (s : State) : State := demapBy (Page.isOf d f) s

/-- A domain demap (R64). -/
def domainDemap (d : DomId) (s : State) : State := demapBy (fun p => p.dom == d) s

/-- A demap of all: both buffers empty, every recency mark names way 0; the Walk List is left (R65). -/
def allDemap (s : State) : State :=
  raiseIf (s.xlat.losesLock fun _ => true) .lockLost
    (s.onXlat fun t => { t with fixed := t.fixed.map FixedEntry.drop, sets := t.sets.map SetRow.drop })

/-- Mark stale every walk whose descriptor line is `k` (R35, R48). -/
def markStale (k : MapLine) (s : State) : State :=
  s.onXlat fun t => { t with
    walks := t.walks.map fun w => if mapLineOf w.dom w.fpn == k then { w with stale := true } else w }

/-! ## Entering the Back Queue -/

/-- Whether the Back Queue has room for a maker's request: the background gate of 12, 24 for the others (R131). -/
def hasRoom (s : State) (w : Waiter) : Bool :=
  match w with
  | .background => decide (s.back.queue.length ≤ Limit.backgroundGate)
  | _ => decide (s.back.queue.length < Limit.queue)

/-- The waiting maker whose request enters next: the first that meets its condition, in the order they began to wait (R131);
of makers that began to wait together, in one step, the one that the step offered first (log entry 48). -/
def firstReady (s : State) : Option Waiter := s.back.waiting.find? (hasRoom s)

/-- Whether a maker's request may enter now: it is the next of the waiting ones, or none of them can enter and there is
room for it (R131). -/
def mayEnter (w : Waiter) (s : State) : Bool :=
  match firstReady s with
  | some v => v == w
  | none => hasRoom s w

/-- A request of the Back Queue as it enters: WAITING, not passed over (R129). -/
def newRequest (id : Nat) (write : Bool) (l : BackLine) (o : Origin) (beat : Beat) (data : Line) (masks : Marks) : BackReq :=
  { id := id, write := write, line := l, origin := o, beat := beat, data := data, masks := masks
    passOver := 0, urgent := false, inService := false }

/-- Put a request at the end of the Back Queue (R129). -/
def enqueue (write : Bool) (l : BackLine) (o : Origin) (beat : Beat) (data : Line) (masks : Marks) (s : State) : State :=
  s.onBack fun b => { b with
    queue := b.queue ++ [newRequest b.nextId write l o beat data masks], nextId := b.nextId + 1 }

/-- A LINE-READ enters. -/
def enqueueRead (l : BackLine) (o : Origin) (beat : Beat) (s : State) : State :=
  enqueue false l o beat zeroLine 0#64 s

/-- A LINE-WRITE of all 64 bytes enters. -/
def enqueueWrite (l : BackLine) (o : Origin) (data : Line) (s : State) : State :=
  enqueue true l o 0#3 data 0#64 s

/-- A maker begins to wait, behind those that the same step has had wait before it (R131; log entry 48). -/
def beginWait (w : Waiter) (s : State) : State :=
  s.onBack fun b => if b.waiting.contains w then b else { b with waiting := b.waiting ++ [w] }

/-- A maker no longer waits. -/
def endWait (w : Waiter) (s : State) : State := s.onBack fun b => { b with waiting := b.waiting.erase w }

/-- A RAW WINDOW write into map line `k` enters the Back Queue: its walks are stale, its eight pairs demapped (R48). -/
def rawWatch (k : MapLine) (s : State) : State :=
  (mapLinePairs k).foldl (fun s p => pageDemap p.1 p.2 s) (markStale k s)

/-- A front transaction's request enters (R89, R129, R131). A read starts with the transaction's beat, one made for a
read-modify-write or a map-window read with beat 0 (R25); a map-window read enters whatever updates of its line have been
taken since it was offered (R32; log entry 46). A KEY WINDOW write is enciphered here, and refused CLOSED when
its key is gone (R83). -/
def enterFront (tag : Tag) (s : State) : State :=
  match findSlot s tag with
  | none => s
  | some x =>
    match x.phase with
    | .readWait l =>
      setPhase tag (.readOut l s.back.nextId)
        (enqueueRead l .front (if x.txn.dir = .read ∧ x.region ≠ some .map then x.txn.beat else 0#3) s)
    | .writeWait l d =>
      match x.region with
      | some .plain => respondDone tag (enqueue true l .front 0#3 d (~~~x.txn.enables) s)
      | some .raw =>
        match rawMapLine x.txn.line with
        | some k => respondDone tag (rawWatch k (enqueueWrite l .front d s))
        | none => respondDone tag (enqueueWrite l .front d s)
      | some .key =>
        match (if x.keyLost then none else lineKey s x.txn.dom) with
        | some k => respondDone tag (enqueueWrite l .front (encipher k l d) s)
        | none => refuse tag .closed .noReason s
      | _ => s
    | _ => s

/-- A walk's line read enters: to READING (R59). -/
def enterWalk (d : DomId) (f : Fpn) (s : State) : State :=
  let s' := enqueueRead (mapBackLine s.seeds.pab (mapLineOf d f)) .walk 0#3 s
  s'.onXlat fun t => { t with
    walks := t.walks.map fun w => if w.dom == d && w.fpn == f then { w with req := some s.back.nextId } else w }

/-- Change the Update List entry of a map line. -/
def onUpdate (k : MapLine) (f : UpdateEntry → UpdateEntry) (s : State) : State :=
  s.onMaps fun m => { m with updates := m.updates.map fun u => if u.line == k then f u else u }

/-- The Update List entry of a map line (R33). -/
def findUpdate (s : State) (k : MapLine) : Option UpdateEntry := s.maps.updates.find? fun u => u.line == k

/-- An Update List entry's line read enters (R34). -/
def enterUpdateRead (k : MapLine) (s : State) : State :=
  onUpdate k (fun u => { u with state := .reading (some s.back.nextId) })
    (enqueueRead (mapBackLine s.seeds.pab k) .update 0#3 s)

/-- The Entry List without the entry that a component write has added and that holds no line yet (R12, R105). -/
def dropNewEntry (c : CompOp) (s : State) : State :=
  if c.combines then s
  else s.onEntry fun u => { u with
    list := u.list.filter fun e => !(e.dom == c.dom && e.fpn == c.fpn && e.firstSet == 0#64) }

/-- The Entry Unit's request enters: a combining read, or a component's line write, whose line then joins its set and
whose front write is answered DONE (R105 to R107). Without a key to encipher the line, its domain erased before the write was
taken, the write is refused CLOSED, and the entry it has added goes (R12, R75, R83; log entry 31). -/
def enterEntry (s : State) : State :=
  match s.entry.work with
  | some (.component c) =>
    let l := keyBackLine s.seeds.pab c.bpn c.line
    match c.stage with
    | .reading _ =>
      setWork (some (.component { c with stage := .reading (some s.back.nextId) })) (enqueueRead l .entry 0#3 s)
    | .writing d =>
      match lineKey s c.dom with
      | some k =>
        let mark := (1#64 : Marks) <<< c.line.toNat
        setWork none (respondDone c.tag
          (onEntryRec c.dom c.fpn
            (fun e => if c.combines then { e with combinedSet := e.combinedSet ||| mark }
              else { e with firstSet := e.firstSet ||| mark })
            (enqueueWrite l .entry (encipher k l d) s)))
      | none => setWork none (refuse c.tag .closed .noReason (dropNewEntry c s))
    | _ => s
  | _ => s

/-- A LIVE zero fill's next line enters, and the line after it begins to wait (R110). -/
def enterLiveFill (s : State) : State :=
  match s.entry.work with
  | some (.finalising x d f (.filling (l :: left) out) rest) =>
    match findEntry s d f, lineKey s d with
    | some e, some k =>
      let b := keyBackLine s.seeds.pab e.bpn l
      let s' := setWork (some (.finalising x d f (.filling left (out ++ [s.back.nextId])) rest))
        (enqueueWrite b .fill (encipher k b zeroLine) s)
      if left.isEmpty then s' else beginWait .liveFill s'
    | _, _ => s
  | _ => s

/-- A front, walk, update-read or entry request enters the Back Queue (R131). Update writes, retire fills and background
writes enter in their own steps. -/
def enter (w : Waiter) (s : State) : State :=
  match w with
  | .front tag => enterFront tag s
  | .walk d f => enterWalk d f s
  | .updateRead k => enterUpdateRead k s
  | .entry => enterEntry s
  | .liveFill => enterLiveFill s
  | .updateWrite _ => s
  | .fill => s
  | .background => s

/-- A request is offered: it enters at once, or begins to wait (R131). -/
def offer (w : Waiter) (s : State) : State := if mayEnter w s then enter w s else beginWait w s

/-- A slot's line read is offered. -/
def offerRead (tag : Tag) (l : BackLine) (s : State) : State := offer (.front tag) (setPhase tag (.readWait l) s)

/-- A slot's line write is offered. -/
def offerWrite (tag : Tag) (l : BackLine) (d : Line) (s : State) : State :=
  offer (.front tag) (setPhase tag (.writeWait l d) s)

end Sys2Proof.Machine
end

