-- ==== Sys2Proof/Machine/Translate.lean ====
section
/-! DEFINITION. Translation and key-window access: lookup, placement and replacement, walks, the class check, and what is
done with a walk's descriptor (chapters 4 and 5). -/

namespace Sys2Proof.Machine

/-! ## Lookup -/

/-- The Fixed Buffer entry that holds a pair (R52). -/
def Translation.fixedHit (d : DomId) (f : Fpn) (t : Translation) : Option (Fin 16) :=
  (List.finRange 16).find? fun i => t.fixed[i].held.holds (Page.isOf d f)

/-- Change a Fixed Buffer entry. -/
def Translation.onFixed (i : Fin 16) (g : FixedEntry → FixedEntry) (t : Translation) : Translation :=
  { t with fixed := t.fixed.set i.val (g t.fixed[i]) i.isLt }

/-- The set of the Set Buffer with an index. -/
def Translation.setAt (i : BitVec 8) (t : Translation) : SetRow := t.sets[i.toNat]'i.isLt

/-- Change a set of the Set Buffer. -/
def Translation.onSet (i : BitVec 8) (g : SetRow → SetRow) (t : Translation) : Translation :=
  { t with sets := t.sets.set i.toNat (g (t.setAt i)) i.isLt }

/-- Lookup (R52): the page found, if any, and the buffers with the used mark or the recency mark of the hit set. -/
def Translation.lookup (d : DomId) (f : Fpn) (t : Translation) : Option Page × Translation :=
  match t.fixedHit d f with
  | some i => (t.fixed[i].page, t.onFixed i fun e => { e with used := true })
  | none =>
    let row := t.setAt (setIndex d f)
    if row.way0.holds (Page.isOf d f) then (row.way0.page, t.onSet (setIndex d f) fun r => { r with recentOne := false })
    else if row.way1.holds (Page.isOf d f) then (row.way1.page, t.onSet (setIndex d f) fun r => { r with recentOne := true })
    else (none, t)

/-! ## Placement and replacement -/

/-- The lowest-numbered Fixed Buffer entry of a kind. -/
def Translation.lowest (c : FixedEntry → Bool) (t : Translation) : Option (Fin 16) :=
  (List.finRange 16).find? fun i => c t.fixed[i]

/-- Clear the used marks of the entries with lock 0 (R55, step 3). -/
def Translation.clearUsed (t : Translation) : Translation :=
  { t with fixed := t.fixed.map fun e => if e.lock then e else { e with used := false } }

/-- The victim of a Fixed Buffer insertion and the buffers as its choice leaves them (R55); none when all 16 are locked. -/
def Translation.victim (t : Translation) : Option (Fin 16 × Translation) :=
  match t.lowest fun e => !e.held.valid with
  | some i => some (i, t)
  | none =>
    match t.lowest fun e => !e.lock && !e.used with
    | some i => some (i, t)
    | none =>
      match t.clearUsed.lowest fun e => !e.lock && !e.used with
      | some i => some (i, t.clearUsed)
      | none => none

/-- Insert a page into the Fixed Buffer with this lock, used 1 (R55); none when no victim is found. -/
def Translation.insertFixed (p : Page) (lock : Bool) (t : Translation) : Option Translation :=
  match t.victim with
  | some (i, t') => some (t'.onFixed i fun _ => { held := .ofPage p, lock := lock, used := true })
  | none => none

/-- Insert a page into the Set Buffer (R54). -/
def Translation.insertSet (p : Page) (t : Translation) : Translation :=
  t.onSet (setIndex p.dom p.fpn) fun r =>
    if r.way0.valid = false then { r with way0 := .ofPage p, recentOne := false }
    else if r.way1.valid = false then { r with way1 := .ofPage p, recentOne := true }
    else if r.recentOne then { r with way0 := .ofPage p, recentOne := false }
    else { r with way1 := .ofPage p, recentOne := true }

/-- Insert a walk's page as R53 places it; a skipped insertion raises BUFFER-SKIP (R56). -/
def insertPage (p : Page) (lock : Bool) (s : State) : State :=
  if lock || p.cls == .key then
    match s.xlat.insertFixed p lock with
    | some t => s.onXlat fun _ => t
    | none => raise .bufferSkip s
  else s.onXlat (.insertSet p)

/-- Write a lifecycle into an entry that holds a pair (R43). -/
def Held.setLife (d : DomId) (f : Fpn) (life : Lifecycle) (h : Held) : Held :=
  if h.holds (Page.isOf d f) then { h with fields := { h.fields with life := life } } else h

/-- Write a lifecycle into the buffered entry of a pair, where it stands (R43). -/
def Translation.setLife (d : DomId) (f : Fpn) (life : Lifecycle) (t : Translation) : Translation :=
  { t with
    fixed := t.fixed.map fun e => { e with held := e.held.setLife d f life }
    sets := t.sets.map fun r => { r with way0 := r.way0.setLife d f life, way1 := r.way1.setLife d f life } }

/-! ## The class check -/

/-- Hand a component write over to the Entry Unit (R88 step 7, R102). -/
def handToEntry (tag : Tag) (p : Page) (s : State) : State :=
  (setPhase tag .entryWait s).onEntry fun u => { u with waiting := u.waiting ++ [.component tag p.bpn p.life] }

/-- Serve a key-window transaction that has passed its checks (R89, R16). -/
def serveKey (tag : Tag) (t : Txn) (p : Page) (s : State) : State :=
  let l := keyBackLine s.seeds.pab p.bpn (keyPageIndex t.line)
  match t.dir with
  | .read => offerRead tag l s
  | .write =>
    if t.enables = 0#64 then respondDone tag s
    else if t.enables = allMarks then offerWrite tag l t.data s
    else offerRead tag l s

/-- The kernel-only and class checks (R88), with the domain's state as it stands. -/
def classCheck (tag : Tag) (p : Page) (s : State) : State :=
  match findSlot s tag with
  | none => s
  | some x =>
    if p.kernelOnly = true ∧ x.txn.priv = .app then refuse tag .denied .privilege s
    else
      match p.cls, x.txn.dir with
      | .dataRo, .write => refuse tag .denied .classRule s
      | .dataRw, .write =>
        if domState s x.txn.dom = .opened then serveKey tag x.txn p s else refuse tag .closed .noReason s
      | .dataRw, .read => serveKey tag x.txn p s
      | .dataRo, .read => serveKey tag x.txn p s
      | .key, .read => if p.life = .live then serveKey tag x.txn p s else refuse tag .denied .lifecycle s
      | .key, .write => handToEntry tag p s

/-! ## Walks -/

/-- The walk for a pair (R57). -/
def Translation.walkFor (d : DomId) (f : Fpn) (t : Translation) : Option Walk :=
  t.walks.find? fun w => w.dom == d && w.fpn == f

/-- Start a walk; it starts stale while the Update List holds its line (R35, R57), and its read is offered (R59). -/
def startWalk (d : DomId) (f : Fpn) (waiters : List Tag) (lock : Bool) (s : State) : State :=
  let stale := s.maps.updates.any fun u => u.line == mapLineOf d f
  offer (.walk d f) (s.onXlat fun t => { t with
    walks := t.walks ++ [{ dom := d, fpn := f, stale := stale, waiters := waiters, lock := lock, req := none }] })

/-- Join a walk as its last waiter (R58). -/
def joinWalk (tag : Tag) (d : DomId) (f : Fpn) (s : State) : State :=
  (setPhase tag .walkWaiter s).onXlat fun t => { t with
    walks := t.walks.map fun w => if w.dom == d && w.fpn == f then { w with waiters := w.waiters ++ [tag] } else w }

/-- Wait in the ACTIVE slot for a walk to leave (R58). -/
def waitForWalk (tag : Tag) (released : Bool) (s : State) : State :=
  (setPhase tag .walkWaiting s).onXlat fun t => { t with waiting := t.waiting ++ [{ tag := tag, released := released }] }

/-- Where a miss goes (R58). -/
inductive MissPlace where
  | join
  | start
  | wait
  deriving DecidableEq, Repr

/-- Place a miss by the Walk List alone (R58). -/
def missPlace (t : Translation) (d : DomId) (f : Fpn) : MissPlace :=
  match t.walkFor d f with
  | some w => if w.stale then .wait else .join
  | none => if t.walks.length < Limit.walks then .start else .wait

/-- Place a transaction that has missed at its start. A free Walk List entry is left for each waiting transaction that a
walk has released and that has still to repeat its lookup; a transaction for which no more is free takes its turn behind
them (R58; log entry 22). -/
def placeMiss (tag : Tag) (d : DomId) (f : Fpn) (s : State) : State :=
  match missPlace s.xlat d f with
  | .join => joinWalk tag d f s
  | .start =>
    if s.xlat.walks.length + (s.xlat.waiting.filter fun w => w.released).length < Limit.walks then
      startWalk d f [tag] false (setPhase tag .walkWaiter s)
    else waitForWalk tag true s
  | .wait => waitForWalk tag false s

/-- Look a key-window transaction up and go on with the page, or place the miss (R52). -/
def lookupKey (tag : Tag) (t : Txn) (s : State) : State :=
  let r := s.xlat.lookup t.dom (keyFpn t.line)
  let s' := s.onXlat fun _ => r.2
  match r.1 with
  | some p => classCheck tag p s'
  | none => placeMiss tag t.dom (keyFpn t.line) s'

/-- A released waiting transaction is re-checked and repeats its lookup (R58, R90). It keeps its place when it must wait
again. -/
def repeatLookup (w : WalkWaiting) (s : State) : State :=
  let gone := s.onXlat fun t => { t with waiting := t.waiting.erase w }
  match findSlot s w.tag with
  | none => gone
  | some x =>
    let d := x.txn.dom
    let f := keyFpn x.txn.line
    if admits (domState s d) x.txn.dir = false then refuse w.tag .closed .noReason gone
    else
      let r := gone.xlat.lookup d f
      let hit := gone.onXlat fun _ => r.2
      match r.1 with
      | some p => classCheck w.tag p hit
      | none =>
        match missPlace s.xlat d f with
        | .join => joinWalk w.tag d f gone
        | .start => startWalk d f [w.tag] false (setPhase w.tag .walkWaiter gone)
        | .wait => s.onXlat fun t => { t with
            waiting := t.waiting.map fun v => if v == w then { v with released := false } else v }

/-- A waiter takes a walk's result: the re-check, then ABSENT or the class check (R60, R90). -/
def serveWaiter (page : Option Page) (s : State) (tag : Tag) : State :=
  match findSlot s tag with
  | none => s
  | some x =>
    if admits (domState s x.txn.dom) x.txn.dir = false then refuse tag .closed .noReason s
    else
      match page with
      | none => refuse tag .absent .noReason s
      | some p => classCheck tag p s

/-- The answer of a lock request reaches the answer slot if the slot still waits for it (R68, R195). -/
def answerLock (c : AnsCode) (s : State) : State :=
  s.onLink fun l => match l.slot with
    | .waiting => { l with slot := .ready c [] }
    | _ => l

/-- What a lock request is answered at its walk's completion (R68). -/
def lockAnswer (page : Option Page) (stale : Bool) (st : DomState) : AnsCode :=
  if page.isNone then .absent else if stale then .busy else if st ≠ .opened then .state else .accepted

/-- A walk's line has arrived and is deciphered: the waiters are served, the lock request answered, the insertion made or
withheld, and the walk leaves, which releases the waiting transactions (R58, R60, R61, R68). -/
def finishWalk (w : Walk) (line : Line) (s : State) : State :=
  let page := (Desc.ofBits (lineDescs line)[descIndex w.fpn]).page w.dom w.fpn (domEpoch s w.dom)
  let left := s.onXlat fun t => { t with
    walks := t.walks.filter fun v => !(v.dom == w.dom && v.fpn == w.fpn)
    waiting := t.waiting.map fun v => { v with released := true } }
  let served := w.waiters.foldl (serveWaiter page) left
  let answered := if w.lock then answerLock (lockAnswer page w.stale (domState s w.dom)) served else served
  match page with
  | some p => if w.stale = false ∧ domState s w.dom = .opened then insertPage p w.lock answered else answered
  | none => answered

/-! ## The start of a transaction -/

/-- Whether a region is served in a cabinet state (R6). -/
def regionServed (c : CabState) (r : Region) : Bool :=
  match r with
  | .plain => true
  | .unclaimed => false
  | .raw => c == .ready || c == .restore
  | .key => c == .ready
  | .map => c == .ready

/-- Carry out a PLAIN transaction (R15, R16). -/
def servePlain (tag : Tag) (t : Txn) (s : State) : State :=
  match t.dir with
  | .read => offerRead tag (plainLine t.line) s
  | .write => if t.enables = 0#64 then respondDone tag s else offerWrite tag (plainLine t.line) t.data s

/-- Carry out a RAW WINDOW transaction (R15, R16, R21). -/
def serveRaw (tag : Tag) (t : Txn) (s : State) : State :=
  let l := rawLine s.front.pabCopy t.line
  match t.dir with
  | .read => offerRead tag l s
  | .write =>
    if t.enables = 0#64 then respondDone tag s
    else if t.enables = allMarks then offerWrite tag l t.data s
    else offerRead tag l s

/-- Carry out a MAP WINDOW transaction (R15, R16, R32, R34). A read whose line no update holds is offered, and is not held
by an update that is taken while it waits to enter the Back Queue (log entry 46). -/
def serveMap (tag : Tag) (t : Txn) (s : State) : State :=
  let k := mapWindowLine t.line
  match t.dir with
  | .read =>
    if (findUpdate s k).isSome then setPhase tag .mapReadHeld s
    else offerRead tag (mapBackLine s.front.pabCopy k) s
  | .write =>
    if t.enables = 0#64 then respondDone tag s
    else (setPhase tag .updateWait s).onMaps fun m => { m with requests := m.requests ++ [.kernel tag k] }

/-- Admission of a KEY WINDOW transaction by its domain's state (R87), then its lookup. -/
def admitKey (tag : Tag) (t : Txn) (s : State) : State :=
  if admits (domState s t.dom) t.dir then lookupKey tag t s else refuse tag .closed .noReason s

/-- The start of a transaction: region, gating, domain tag and privilege, shadow check, admission, in the order of R8. -/
def startTxn (tag : Tag) (s : State) : State :=
  match findSlot s tag with
  | none => s
  | some x =>
    let t := x.txn
    let r := regionOf t.line
    let s' := onSlot tag (fun y => { y with region := some r }) s
    match r with
    | .unclaimed => refuse tag .nowhere .noReason s'
    | .plain =>
      if s.cab.cabinet ≠ .blank ∧ inProtectedArea s.front.pabCopy (plainLine t.line) = true then
        refuse tag .shadow .noReason s'
      else servePlain tag t s'
    | .key => if regionServed s.cab.cabinet .key then admitKey tag t s' else refuse tag .unready .noReason s'
    | .map =>
      if regionServed s.cab.cabinet .map = false then refuse tag .unready .noReason s'
      else if t.dom ≠ 0#6 then refuse tag .denied .domain s'
      else if t.priv = .app then refuse tag .denied .privilege s'
      else serveMap tag t s'
    | .raw =>
      if regionServed s.cab.cabinet .raw = false then refuse tag .unready .noReason s'
      else if t.dom ≠ 0#6 then refuse tag .denied .domain s'
      else if t.priv = .app then refuse tag .denied .privilege s'
      else serveRaw tag t s'

/-- Whether an outstanding transaction is to this front line. -/
def lineBusy (s : State) (l : FrontLine) : Bool := s.front.slots.any fun x => x.txn.line == l

/-- Whether the port accepts a transaction now (R3). -/
def acceptable (s : State) (t : Txn) : Bool :=
  decide (s.front.slots.length < Limit.slots) && !(s.front.slots.any fun x => x.txn.tag == t.tag)

/-- Accept a transaction into a FREE slot: FOLLOWING behind an older one to its line, else it starts (R2, R8). -/
def accept (t : Txn) (s : State) : State :=
  let s' := s.onFront fun p => { p with
    slots := p.slots ++ [{ txn := t, region := none, phase := .following, keyLost := false }] }
  if lineBusy s t.line then s' else startTxn t.tag s'

/-- Whether the slot of a tag is the oldest outstanding one to its front line (R10). -/
def oldestOnLine (s : State) (x : Slot) : Bool :=
  match s.front.slots.find? fun y => y.txn.line == x.txn.line with
  | some y => y.txn.tag == x.txn.tag
  | none => false

end Sys2Proof.Machine
end

