-- ==== Sys2Proof/Machine/EntryOps.lean ====
section
/-! DEFINITION. The Entry Unit: windows, the judgement of component writes, part updates and finalisations (chapter 6). -/

namespace Sys2Proof.Machine

/-! ## Windows -/

/-- The custodian other than one. -/
def otherCustodian : Custodian → Custodian
  | .a => .b
  | .b => .a

/-- A custodian's window. -/
def EntryUnit.window (x : Custodian) (u : EntryUnit) : Window :=
  match x with
  | .a => u.windowA
  | .b => u.windowB

/-- Change a custodian's window. -/
def EntryUnit.onWindow (x : Custodian) (f : Window → Window) (u : EntryUnit) : EntryUnit :=
  match x with
  | .a => { u with windowA := f u.windowA }
  | .b => { u with windowB := f u.windowB }

/-- A custodian's input. -/
def EntryUnit.switch (x : Custodian) (u : EntryUnit) : SampledInput :=
  match x with
  | .a => u.switchA
  | .b => u.switchB

/-- Set a custodian's registered position; its count returns to 0 (R94). -/
def EntryUnit.register (x : Custodian) (on : Bool) (u : EntryUnit) : EntryUnit :=
  match x with
  | .a => { u with switchA := { on := on, count := 0 } }
  | .b => { u with switchB := { on := on, count := 0 } }

/-- Request an entry operation; one like it that waits already is merged with it (R102). -/
def EntryUnit.request (o : EntryOp) (u : EntryUnit) : EntryUnit :=
  if u.waiting.contains o then u else { u with waiting := u.waiting ++ [o] }

/-- The custodian of the one OPEN window, or why there is none (R103 step 2). -/
def EntryUnit.openCustodian (u : EntryUnit) : Except Reason Custodian :=
  match u.windowA.state, u.windowB.state with
  | .opened, .opened => .error .ambiguous
  | .opened, _ => .ok .a
  | _, .opened => .ok .b
  | _, _ => .error .noWindow

/-! ## Part updates -/

/-- A part update of one page's descriptor (R42). -/
def partUpdate (d : DomId) (f : Fpn) (bpn : Bpn) (expect : List Lifecycle) (life : Lifecycle)
    (cust : Option Custodian) : PartUpdate :=
  { line := mapLineOf d f
    changes := [{ dom := d, fpn := f, bpn := bpn, expect := expect, life := life, cust := cust }] }

/-- The Entry Unit offers a part update to the Map Unit (R34, R102). -/
def offerPart (p : PartUpdate) (s : State) : State := s.onMaps fun m => { m with requests := m.requests ++ [.part p] }

/-- The part update of ABANDON-ENTRY for an entry (R42, R113). -/
def abandonUpdate (e : EntryRec) : PartUpdate :=
  partUpdate e.dom e.fpn e.bpn [.first, .half, .second] .retired none

/-! ## Component writes -/

/-- What a component write that passes its judgement does (R104). -/
inductive CompAction where
  /-- First component write (R105). -/
  | first
  /-- First-component line write (R106). -/
  | line
  /-- First combining write (R107). -/
  | combineFirst
  /-- Combining write (R107). -/
  | combine
  deriving DecidableEq, Repr

/-- Step 4 of the judgement (R104): a listed page by its entry, an unlisted one by the lifecycle handed over. -/
def judgePhase (e : Option EntryRec) (life : Lifecycle) (count : Nat) (x : Custodian) (l : PageLine) :
    Except Reason CompAction :=
  match e with
  | none =>
    if life = .empty then (if count < Limit.entries then .ok .first else .error .entryFull) else .error .lifecycle
  | some r =>
    match r.phase with
    | .first => if x = r.first then .ok .line else .error .custodian
    | .half =>
      if x = r.first then .error .custodian
      else if r.firstSet.getLsbD l.toNat then .ok .combineFirst else .error .line
    | .second =>
      if x = r.first then .error .custodian
      else if r.firstSet.getLsbD l.toNat && !r.combinedSet.getLsbD l.toNat then .ok .combine else .error .line

/-- The judgement of a component write at its taking (R103). -/
def judgeComponent (u : EntryUnit) (t : Txn) (life : Lifecycle) : Except Reason (Custodian × CompAction) :=
  let f := keyFpn t.line
  if u.domain ≠ some t.dom then .error .domain
  else
    match u.openCustodian with
    | .error r => .error r
    | .ok x =>
      if t.enables ≠ allMarks then .error .partialWrite
      else
        match judgePhase (u.list.find? fun e => e.dom == t.dom && e.fpn == f) life u.list.length x (keyPageIndex t.line) with
        | .error r => .error r
        | .ok a => .ok (x, a)

/-- Carry out a component write that has passed its judgement (R105 to R107). -/
def beginComponent (tag : Tag) (t : Txn) (bpn : Bpn) (x : Custodian) (a : CompAction) (s : State) : State :=
  let d := t.dom
  let f := keyFpn t.line
  let listed := ((findEntry s d f).map EntryRec.bpn).getD bpn
  let op : CompOp :=
    { tag := tag, dom := d, fpn := f, line := keyPageIndex t.line, bpn := listed, combines := false
      stage := .writing t.data }
  let s := setPhase tag .entryTaken s
  match a with
  | .first =>
    let added := s.onEntry fun u => { u with
      list := u.list ++ [{ dom := d, fpn := f, bpn := bpn, phase := .first, first := x, firstSet := 0#64, combinedSet := 0#64 }] }
    offerPart (partUpdate d f bpn [.empty] .first (some x))
      (setWork (some (.component { op with stage := .firstUpdate })) added)
  | .line => offer .entry (setWork (some (.component op)) s)
  | .combineFirst =>
    offerPart (partUpdate d f listed [.half] .second none)
      (setWork (some (.component { op with combines := true, stage := .combineUpdate }))
        (onEntryRec d f (fun e => { e with phase := .second }) s))
  | .combine => offer .entry (setWork (some (.component { op with combines := true, stage := .reading none })) s)

/-! ## Finalisations -/

/-- What a finalisation for `x` (deferred when none) does to an entry (R109, R115). -/
def finAction (x : Option Custodian) (e : EntryRec) : Option FinStage :=
  let finish : FinStage :=
    if e.combinedSet = e.firstSet then
      .filling ((List.finRange 64).filterMap fun i =>
        if e.firstSet.getLsbD i.val then none else some (BitVec.ofNat 6 i.val)) []
    else .retire
  match x, e.phase with
  | some c, .first => if e.first = c then some .half else none
  | some _, .half => none
  | some c, .second => if otherCustodian e.first = c then some finish else none
  | none, .first => some .half
  | none, .half => some .keepHalf
  | none, .second => some finish

/-- The part update a finalisation's stage offers (R42). -/
def finUpdate (e : EntryRec) (st : FinStage) : PartUpdate :=
  match st with
  | .half => partUpdate e.dom e.fpn e.bpn [.first] .half none
  | .keepHalf => partUpdate e.dom e.fpn e.bpn [.half] .half none
  | .retire => partUpdate e.dom e.fpn e.bpn [.second] .retired none
  | .live => partUpdate e.dom e.fpn e.bpn [.second] .live none
  | .filling _ _ => partUpdate e.dom e.fpn e.bpn [.second] .live none

/-- Begin an affected entry's turn: its phase, and its part update or its LIVE zero fill (R109 to R111). -/
def beginEntry (x : Option Custodian) (e : EntryRec) (st : FinStage) (rest : List (DomId × Fpn)) (s : State) : State :=
  let work (st : FinStage) : Option EntryWork := some (.finalising x e.dom e.fpn st rest)
  match st with
  | .half =>
    offerPart (finUpdate e .half) (setWork (work .half) (onEntryRec e.dom e.fpn (fun r => { r with phase := .half }) s))
  | .filling [] _ => offerPart (finUpdate e .live) (setWork (work .live) s)
  | .filling (l :: left) out => beginWait .liveFill (setWork (work (.filling (l :: left) out)) s)
  | .keepHalf => offerPart (finUpdate e .keepHalf) (setWork (work .keepHalf) s)
  | .retire => offerPart (finUpdate e .retire) (setWork (work .retire) s)
  | .live => offerPart (finUpdate e .live) (setWork (work .live) s)

/-- Go on with a finalisation: the next page that is still listed and affected begins its turn; after the last the
finalisation ends and WINDOW-CLOSED is raised (R109, R112, R115). -/
def advanceFin (x : Option Custodian) : List (DomId × Fpn) → State → State
  | [], s => raise .windowClosed (setWork none s)
  | (d, f) :: rest, s =>
    match findEntry s d f with
    | none => advanceFin x rest s
    | some e =>
      match finAction x e with
      | none => advanceFin x rest s
      | some st => beginEntry x e st rest s

/-- Take a finalisation over the entries listed (R109, R115). -/
def beginFin (x : Option Custodian) (s : State) : State :=
  advanceFin x (s.entry.list.map fun e => (e.dom, e.fpn)) s

/-- Go on with an abandonment: the next retire update is offered, or the operation ends (R113). -/
def advanceAbandon (rest : List PartUpdate) (s : State) : State :=
  match rest with
  | [] => setWork none s
  | p :: rest => offerPart p (setWork (some (.abandoning rest)) s)

/-- Refuse the component write that is being carried out DENIED (LIFECYCLE) and end it (R105, R107, R108). -/
def dropComponent (c : CompOp) (s : State) : State :=
  setWork none (endWait .entry (refuse c.tag .denied .lifecycle s))

/-! ## Reports of the Map Unit -/

/-- A part update is reported complete: the operation in progress goes on (R43, R105, R107, R109 to R111, R113). -/
def partComplete (s : State) : State :=
  match s.entry.work with
  | some (.component c) =>
    match findEntry s c.dom c.fpn, findSlot s c.tag with
    | some _, some x =>
      match c.stage with
      | .firstUpdate => offer .entry (setWork (some (.component { c with stage := .writing x.txn.data })) s)
      | .combineUpdate => offer .entry (setWork (some (.component { c with stage := .reading none })) s)
      | _ => s
    | _, _ => dropComponent c s
  | some (.finalising x d f st rest) =>
    match st with
    | .retire => advanceFin x rest (raise .entryAbandoned (removeEntry d f s))
    | .live => advanceFin x rest (removeEntry d f s)
    | _ => advanceFin x rest s
  | some (.abandoning rest) => advanceAbandon rest s
  | none => s

/-- A part update's failure for one page: a listed entry is removed with ENTRY-ABANDONED (R42). -/
def failPage (s : State) (p : DomId × Fpn) : State :=
  if (findEntry s p.1 p.2).isSome then raise .entryAbandoned (removeEntry p.1 p.2 s) else s

/-- A part update is reported failed for these pages: their entries go, and the operation in progress goes on (R42). -/
def partFailed (pages : List (DomId × Fpn)) (s : State) : State :=
  let s := pages.foldl failPage s
  match s.entry.work with
  | some (.component c) => dropComponent c s
  | some (.finalising x _ _ _ rest) => advanceFin x rest s
  | some (.abandoning rest) => advanceAbandon rest s
  | none => s

/-- A merged line that retires these pages has entered the Back Queue: the entries of them all are removed, without an event,
and only then is an operation in progress for one of them cut short where R108 or R110 says so, and goes on over the pages
that are left (R36, R114; log entry 28). -/
def kernelRetires (pages : List (DomId × Fpn)) (s : State) : State :=
  let s := s.onEntry fun u => { u with list := u.list.filter fun e => !pages.contains (e.dom, e.fpn) }
  match s.entry.work with
  | some (.component c) =>
    if pages.contains (c.dom, c.fpn) then
      match c.stage with
      | .reading _ => dropComponent c s
      | .writing _ => dropComponent c s
      | _ => s
    else s
  | some (.finalising x d f (.filling _ _) rest) =>
    if pages.contains (d, f) then advanceFin x rest (endWait .liveFill s) else s
  | _ => s

end Sys2Proof.Machine
end

