-- ==== Sys2Proof/Machine/Updates.lean ====
section
/-! DEFINITION. The Map Unit: taking updates, kernel merges and part updates, fill room, and retire fills (chapter 3). -/

namespace Sys2Proof.Machine

/-! ## Taking -/

/-- The map line of an update request. -/
def UpdateRequest.line : UpdateRequest → MapLine
  | .kernel _ k => k
  | .part p => p.line

/-- Whether a pick names a request. -/
def pickNames (pick : UpdatePick) (r : UpdateRequest) : Bool :=
  match pick, r with
  | .kernel t, .kernel u _ => t == u
  | .part, .part _ => true
  | _, _ => false

/-- The request a pick names, with the requests that began to wait before it (R34). -/
def MapUnit.picked (pick : UpdatePick) : List UpdateRequest → Option (List UpdateRequest × UpdateRequest)
  | [] => none
  | r :: rest =>
    if pickNames pick r then some ([], r)
    else (MapUnit.picked pick rest).map fun q => (r :: q.1, q.2)

/-- Whether a request has its turn among those for its line (R34): none of them began to wait before it, or they waited
together for the line when it freed, so that either may be taken first. -/
def MapUnit.inTurn (m : MapUnit) (before : List UpdateRequest) (r : UpdateRequest) : Bool :=
  !(before.any fun q => q.line == r.line) || m.together.contains r

/-- Whether a request may be taken (R34): its line is free, it has its turn among the requests for that line, and the list
has room for it beside the requests for other free lines that began to wait before it. A request whose line was held counts
from its arrival, as one that waited for a free entry does (log entry 47). -/
def MapUnit.mayTake (m : MapUnit) (before : List UpdateRequest) (r : UpdateRequest) : Bool :=
  let free := fun (k : MapLine) => !(m.updates.any fun u => u.line == k)
  let earlier := ((before.map UpdateRequest.line).filter fun k => free k && k != r.line).dedup
  free r.line && m.inTurn before r && decide (m.updates.length + earlier.length < Limit.updates)

/-- The requests without one that is taken (R34). The others for its line wait for that line again, and once the list is
full every other that waits for a free line waits for a free entry: for both, the choice that the freed line gave is over. -/
def MapUnit.without (r : UpdateRequest) (m : MapUnit) : MapUnit :=
  { m with
    requests := m.requests.erase r
    together := if m.updates.length + 1 < Limit.updates then m.together.filter fun q => q.line != r.line else [] }

/-- A new Update List entry (R33, R34). -/
def newUpdate (k : MapLine) (o : UpdateOrigin) (st : UpdateState) : UpdateEntry :=
  { line := k, origin := o, state := st, stored := zeroLine, result := zeroLine, fills := [], held := false, removes := [] }

/-- Take a request into the Update List: WAITING for a kernel merge whose line has fills, else READING with its line read
offered; walks in flight on the line become stale (R34, R35, R47). -/
def takeUpdate (r : UpdateRequest) (s : State) : State :=
  let k := r.line
  let filling := s.maps.fills.any fun x => x.line == k
  let s' := markStale k (s.onMaps (MapUnit.without r))
  match r with
  | .kernel tag _ =>
    let st : UpdateState := if filling then .waiting else .reading none
    let s'' := (setPhase tag .updateListed s').onMaps fun m => { m with updates := m.updates ++ [newUpdate k (.kernel tag) st] }
    if filling then s'' else offer (.updateRead k) s''
  | .part p => offer (.updateRead k) (s'.onMaps fun m => { m with updates := m.updates ++ [newUpdate k (.part p) (.reading none)] })

/-! ## The kernel's merge -/

/-- What the merge makes of one touched descriptor (R38 to R40). -/
structure MergeOut where
  out : Desc
  held : Bool
  retires : Bool
  removes : Bool
  deriving DecidableEq, Repr

/-- The forced fields of a descriptor formed from the proposed one (R39). -/
def forceDesc (n : Desc) (epoch : Epoch) : Desc :=
  if n.valid = 0#1 then n
  else
    match PageClass.ofCode n.cls with
    | some .key => { n with epoch := epoch, life := Lifecycle.empty.code, cust := custCode .a }
    | some _ => { n with epoch := epoch, life := 0#3 }
    | none => { n with epoch := epoch }

/-- A page in entry or LIVE (R38): RETIRED if the kernel proposes that, otherwise unchanged and perhaps held. -/
def guardDesc (x n : Desc) (inEntry : Bool) : MergeOut :=
  if n.life = Lifecycle.retired.code then
    { out := { x with life := Lifecycle.retired.code, owner := n.owner }, held := false, retires := true, removes := inEntry }
  else
    { out := { x with owner := n.owner }, held := decide ({ n with owner := x.owner } ≠ x), retires := false, removes := false }

/-- The result of a touched descriptor with stored value `x` and proposed value `n` (R38). -/
def mergeDesc (x n : Desc) (epoch : Epoch) : MergeOut :=
  let formed : MergeOut := { out := forceDesc n epoch, held := false, retires := false, removes := false }
  match x.page 0#6 0#14 epoch with
  | none => formed
  | some p =>
    match p.cls, p.life with
    | .key, .first => guardDesc x n true
    | .key, .half => guardDesc x n true
    | .key, .second => guardDesc x n true
    | .key, .live => guardDesc x n false
    | _, _ => formed

/-- Whether a write's enables touch descriptor `i`: any of its eight bytes is enabled (R37). -/
def touches (enables : Marks) (i : Fin 8) : Bool := enables.extractLsb' (8 * i.val) 8 != 0#8

/-- What the merge makes of descriptor `i`; an untouched one is written back unchanged (R37). -/
def mergeAt (stored data : Line) (enables : Marks) (epoch : Epoch) (i : Fin 8) : MergeOut :=
  let x := Desc.ofBits (lineDescs stored)[i]
  if touches enables i then mergeDesc x (Desc.ofBits (lineDescs (mergeLine stored data enables))[i]) epoch
  else { out := x, held := false, retires := false, removes := false }

/-- The retire fill of descriptor `i` of map line `k` (R44). -/
def fillOf (k : MapLine) (i : Fin 8) (bpn : Bpn) : Fill :=
  { dom := mapLineDomain k, fpn := mapLineFpn k i, bpn := bpn, line := k, next := 0 }

/-- The result of a kernel merge: the line, the fills it starts, whether it was held, and the entries it removes
(R37 to R40). -/
def formMerge (k : MapLine) (stored data : Line) (enables : Marks) (epoch : Epoch) :
    Line × List Fill × Bool × List (DomId × Fpn) :=
  let m := mergeAt stored data enables epoch
  let ix := List.finRange 8
  (descsLine (Vector.ofFn fun i => (m i).out.toBits),
    ix.filterMap fun i => if (m i).retires then some (fillOf k i (m i).out.bpn) else none,
    ix.any fun i => (m i).held,
    ix.filterMap fun i => if (m i).removes then some (mapLineDomain k, mapLineFpn k i) else none)

/-! ## The part's updates -/

/-- Whether a stored descriptor passes a change's check: usable, class KEY, the recorded BPN, an expected lifecycle
(R42). -/
def passes (stored : Line) (epoch : Epoch) (c : PartChange) : Bool :=
  match (Desc.ofBits (lineDescs stored)[descIndex c.fpn]).page c.dom c.fpn epoch with
  | none => false
  | some p => p.cls == .key && p.bpn == c.bpn && c.expect.contains p.life

/-- A descriptor with a change applied, every other field kept (R42). -/
def applyChange (c : PartChange) (x : Desc) : Desc :=
  { x with life := c.life.code, cust := (c.cust.map custCode).getD x.cust }

/-- The line with a part update's changes applied (R42). -/
def formPart (stored : Line) (changes : List PartChange) : Line :=
  descsLine (changes.foldl
    (fun v c => v.set (descIndex c.fpn).val (applyChange c (Desc.ofBits v[descIndex c.fpn])).toBits (descIndex c.fpn).isLt)
    (lineDescs stored))

/-- The retire fills a part update starts (R42). -/
def partFills (p : PartUpdate) : List Fill :=
  p.changes.filterMap fun c =>
    if c.life = .retired then some { dom := c.dom, fpn := c.fpn, bpn := c.bpn, line := p.line, next := 0 } else none

/-! ## Fill room -/

/-- Fill List places that WRITING entries hold (R36). -/
def MapUnit.reserved (m : MapUnit) : Nat :=
  (m.updates.map fun u => if u.state = .writing true then u.fills.length else 0).sum

/-- Give room to the entries that wait for it, in the order they entered WRITING, as far as it goes; each then waits to
send its line write (R36). -/
def grantRoom : List MapLine → State → State
  | [], s => s.onMaps fun m => { m with roomOrder := [] }
  | k :: rest, s =>
    match findUpdate s k with
    | none => grantRoom rest s
    | some u =>
      if s.maps.fills.length + s.maps.reserved + u.fills.length ≤ Limit.fills then
        grantRoom rest (beginWait (.updateWrite k) (onUpdate k (fun v => { v with state := .writing true }) s))
      else s.onMaps fun m => { m with roomOrder := k :: rest }

/-- An entry's result is formed: it enters WRITING and takes, or waits for, its fill room (R36). -/
def enterWriting (k : MapLine) (stored result : Line) (fills : List Fill) (held : Bool)
    (removes : List (DomId × Fpn)) (s : State) : State :=
  let set := fun (room : Bool) (v : UpdateEntry) =>
    { v with state := .writing room, stored := stored, result := result, fills := fills, held := held, removes := removes }
  if fills.isEmpty then beginWait (.updateWrite k) (onUpdate k (set true) s)
  else
    let s' := (onUpdate k (set false) s).onMaps fun m => { m with roomOrder := m.roomOrder ++ [k] }
    grantRoom s'.maps.roomOrder s'

/-- Remove an entry from the Update List; of the requests that wait together for its line either may be taken next
(R34). -/
def leaveUpdates (k : MapLine) (s : State) : State :=
  s.onMaps fun m => { m with
    updates := m.updates.filter fun u => !(u.line == k)
    together := m.requests.filter fun q => q.line == k || m.together.contains q }

/-- An Update List entry's deciphered line has arrived: its result is formed, or a failed part update leaves the list and
is reported (R36, R37, R42). -/
def updateArrived (u : UpdateEntry) (stored : Line) (s : State) : State :=
  let epoch := domEpoch s (mapLineDomain u.line)
  match u.origin with
  | .kernel tag =>
    match findSlot s tag with
    | none => s
    | some x =>
      let r := formMerge u.line stored x.txn.data x.txn.enables epoch
      enterWriting u.line stored r.1 r.2.1 r.2.2.1 r.2.2.2 s
  | .part p =>
    let failed := p.changes.filter fun c => !passes stored epoch c
    if failed.isEmpty then enterWriting u.line stored (formPart stored p.changes) (partFills p) false [] s
    else partFailed (failed.map fun c => (c.dom, c.fpn)) (leaveUpdates u.line s)

/-! ## The line write and its consequences -/

/-- The pairs of a map line whose result differs from the stored descriptor outside the owner bits (R41). -/
def changedPairs (k : MapLine) (stored result : Line) : List (DomId × Fpn) :=
  (List.finRange 8).filterMap fun i =>
    let x := Desc.ofBits (lineDescs stored)[i]
    let r := Desc.ofBits (lineDescs result)[i]
    if { r with owner := x.owner } ≠ x then some (mapLineDomain k, mapLineFpn k i) else none

/-- The HELD report of a kernel merge (R40). -/
def reportHeld (tag : Tag) (s : State) : State :=
  match findSlot s tag with
  | none => s
  | some x => report (refusalReport .held .noReason x) s

/-- What an update's line write hands on (R36): a kernel merge's demaps, removed entries, response and HELD report, which the
Event Unit takes after that of a component write cut short (R182; log entry 45); a part update's in-place update and its completion report. -/
def handOn (u : UpdateEntry) (s : State) : State :=
  match u.origin with
  | .kernel tag =>
    let demapped := (changedPairs u.line u.stored u.result).foldl (fun s p => pageDemap p.1 p.2 s) s
    let answered := respondDone tag (kernelRetires u.removes demapped)
    if u.held then reportHeld tag answered else answered
  | .part p =>
    partComplete (p.changes.foldl (fun s c => s.onXlat (.setLife c.dom c.fpn c.life)) s)

/-- An entry that holds its room sends its enciphered line write, leaves the list, starts its fills and hands on its
consequences (R36). -/
def sendUpdate (u : UpdateEntry) (key : LineKey) (s : State) : State :=
  let b := mapBackLine s.seeds.pab u.line
  let sent := leaveUpdates u.line (endWait (.updateWrite u.line) (enqueueWrite b .update (encipher key b u.result) s))
  handOn u (sent.onMaps fun m => { m with fills := m.fills ++ u.fills })

/-! ## Retire fills -/

/-- Take fills off the Fill List; a fill line offered for an oldest entry that goes is withdrawn, and the room freed is
given on (R36, R45, R46). -/
def keepFills (keep : Fill → Bool) (s : State) : State :=
  let fills := s.maps.fills.filter keep
  let s' := if fills.head? = s.maps.fills.head? then s else endWait .fill s
  let s'' := s'.onMaps fun m => { m with fills := fills }
  grantRoom s''.maps.roomOrder s''

/-- The oldest fill leaves the list (R45, R46). -/
def dropOldestFill (s : State) : State :=
  let s' := (endWait .fill s).onMaps fun m => { m with fills := m.fills.tail }
  grantRoom s'.maps.roomOrder s'

/-- The next line of the oldest fill enters the Back Queue (R45). -/
def sendFill (x : Fill) (key : LineKey) (s : State) : State :=
  let b := keyBackLine s.seeds.pab x.bpn (BitVec.ofNat 6 x.next)
  let sent := enqueueWrite b .fill (encipher key b zeroLine) s
  if x.next < 63 then
    (endWait .fill sent).onMaps fun m => { m with fills := { x with next := x.next + 1 } :: m.fills.tail }
  else dropOldestFill sent

end Sys2Proof.Machine
end

