-- ==== Sys2Proof/Machine/Dram.lean ====
section
/-! DEFINITION. The Back Controller: timing conditions, the command path, selection and service, refresh, and bursts
(chapter 7). -/

namespace Sys2Proof.Machine

/-! ## Clocks and records -/

/-- WL is RL − 1 (R120). -/
def Timing.wl (t : Timing) : Nat := t.rl - 1

/-- At least `n` clocks have passed at clock `t` since a recorded clock; it holds where the record holds none (chapter 7,
introduction). -/
def since (last : Option Nat) (n t : Nat) : Bool :=
  match last with
  | none => true
  | some c => decide (c + n ≤ t)

/-- The clocks until a rank's timer next returns to 0: at the next clock when a new tREFI has made it stand too high
(R126). -/
def Rank.untilAccrual (tREFI : Nat) (r : Rank) : Nat := max 1 (tREFI - r.timer)

/-- A rank's timer counts `n` clocks, and each return to 0 is noted for REFRESH_ACCRUAL (R126). -/
def Rank.count (tREFI n : Nat) (r : Rank) : Rank :=
  let need := r.untilAccrual tREFI
  if n < need then { r with timer := r.timer + n }
  else { r with timer := (n - need) % tREFI, accrued := r.accrued + 1 + (n - need) / tREFI }

/-- The clock moves on to `t`. The refresh timers count the clocks that pass, once START-UP has ended (R126). -/
def BackCtl.advance (t : Nat) (b : BackCtl) : BackCtl :=
  { b with
    clock := max b.clock t
    ranks := if b.startUp.isSome then b.ranks else Vector.ofFn fun r => b.ranks[r].count b.timing.tREFI (t - b.clock) }

/-- A bank's record. -/
def BackCtl.bank (r : Fin 2) (i : Fin 8) (b : BackCtl) : Bank := b.banks[bankIx r i]

/-- Change a bank's record. -/
def BackCtl.onBank (r : Fin 2) (i : Fin 8) (f : Bank → Bank) (b : BackCtl) : BackCtl :=
  { b with banks := b.banks.set (bankIx r i).val (f b.banks[bankIx r i]) (bankIx r i).isLt }

/-- Change a rank's record. -/
def BackCtl.onRank (r : Fin 2) (f : Rank → Rank) (b : BackCtl) : BackCtl :=
  { b with ranks := b.ranks.set r.val (f b.ranks[r]) r.isLt }

/-- The DRAM place of a request. -/
def BackReq.place (q : BackReq) : DramPlace := dramPlace q.line

/-- The clock at which the last write burst to a bank ends, those on their way included (R123, R137). -/
def BackCtl.writeEnd (r : Fin 2) (i : Fin 8) (b : BackCtl) : Option Nat :=
  match (b.bursts.filter fun x => x.req.write && x.req.place.rank == r && x.req.place.bank == i).getLast? with
  | some x => some x.finish
  | none => (b.bank r i).lastWrite

/-- A precharge of a bank may be made at clock `t` (R123). -/
def BackCtl.mayPrecharge (r : Fin 2) (i : Fin 8) (t : Nat) (b : BackCtl) : Bool :=
  (b.bank r i).row.isSome && since (b.bank r i).lastAct b.timing.tRAS t &&
    since (b.bank r i).lastRead b.timing.tRTP t && since (b.writeEnd r i) b.timing.tWR t

/-- A precharge command may be issued: R123, and the bank is not about to precharge itself. -/
def BackCtl.mayPrechargeCmd (r : Fin 2) (i : Fin 8) (t : Nat) (b : BackCtl) : Bool :=
  b.mayPrecharge r i t && (b.bank r i).closing.isNone

/-- An activation of a bank may be issued at clock `t` (R121). -/
def BackCtl.mayActivate (r : Fin 2) (i : Fin 8) (t : Nat) (b : BackCtl) : Bool :=
  (b.bank r i).row.isNone && since (b.bank r i).lastPre b.timing.tRP t &&
    since b.ranks[r].history.getLast? b.timing.tRRD t &&
    (decide (b.ranks[r].history.length < 4) || since b.ranks[r].history.head? b.timing.tFAW t) &&
    b.ranks[r].state == .normal

/-- The clock the burst of a column command issued at `t` begins (R118). -/
def BackCtl.burstStart (write : Bool) (t : Nat) (b : BackCtl) : Nat :=
  t + (if write then b.timing.wl else b.timing.rl)

/-- The data path is free for a burst that begins at `c` (R122). -/
def BackCtl.pathFree (r : Fin 2) (write : Bool) (c : Nat) (b : BackCtl) : Bool :=
  match b.dataPath with
  | none => true
  | some x => if x.rank == r && x.write == write then decide (x.finish ≤ c) else decide (x.finish + 2 ≤ c)

/-- The column command of a request may be issued at clock `t` (R122). A bank with an automatic precharge to come takes
no further column command (R135). -/
def BackCtl.mayColumn (q : BackReq) (t : Nat) (b : BackCtl) : Bool :=
  let p := q.place
  (b.bank p.rank p.bank).row == some p.row && (b.bank p.rank p.bank).closing.isNone &&
    since (b.bank p.rank p.bank).lastAct b.timing.tRCD t &&
    b.pathFree p.rank q.write (b.burstStart q.write t) &&
    (q.write || (List.finRange 8).all fun i => since (b.writeEnd p.rank i) b.timing.tWTR t)

/-- The request with a name. -/
def BackCtl.request (id : Nat) (b : BackCtl) : Option BackReq := b.queue.find? fun q => q.id == id

/-- The requests in service, in the order of the service list. -/
def BackCtl.served (b : BackCtl) : List BackReq := b.service.filterMap fun id => b.request id

/-! ## What the clock makes due -/

/-- The clock a bank's automatic precharge happens at: the first, from the clock it is asked for, that meets R123. -/
def BackCtl.autoClock (r : Fin 2) (i : Fin 8) (b : BackCtl) : Nat :=
  max ((b.bank r i).closing.getD 0)
    (max (((b.bank r i).lastAct.map fun c => c + b.timing.tRAS).getD 0)
      (max (((b.bank r i).lastRead.map fun c => c + b.timing.tRTP).getD 0)
        (((b.writeEnd r i).map fun c => c + b.timing.tWR).getD 0)))

/-- The clock at which a refresh ends: tRFC after it (R127). -/
def BackCtl.refreshEndClock (r : Fin 2) (b : BackCtl) : Nat := (b.ranks[r].lastRefresh.getD 0) + b.timing.tRFC

/-- A bank's automatic precharge has come at clock `t` (R123). -/
def BackCtl.autoDue (r : Fin 2) (i : Fin 8) (t : Nat) (b : BackCtl) : Bool :=
  (b.bank r i).closing.isSome && decide (b.autoClock r i ≤ t)

/-- A rank's refresh has ended at clock `t` (R127). -/
def BackCtl.endDue (r : Fin 2) (t : Nat) (b : BackCtl) : Bool :=
  b.ranks[r].state == .refreshing && decide (b.refreshEndClock r ≤ t)

/-- Every bank, rank 0 before rank 1, lowest number first. -/
def allBanks : List (Fin 2 × Fin 8) := (List.finRange 2).flatMap fun r => (List.finRange 8).map fun i => (r, i)

/-- Nothing that the clock has made due at `t` is still to be taken: no accrual, no automatic precharge and no end of a
refresh. The arbiter and the command path act at `t` only then (log entry 8). -/
def BackCtl.timely (t : Nat) (b : BackCtl) : Bool :=
  (List.finRange 2).all (fun r => b.ranks[r].accrued == 0 && !b.endDue r t) &&
    allBanks.all fun p => !b.autoDue p.1 p.2 t

/-! ## The command path -/

/-- A command of the command path (R118). -/
inductive PathCmd where
  | precharge (r : Fin 2) (b : Fin 8)
  | refresh (r : Fin 2)
  | column (id : Nat)
  | activate (r : Fin 2) (b : Fin 8) (row : BitVec 14)
  deriving DecidableEq, Repr

/-- What refreshing a rank needs at clock `t`: a precharge of its lowest-numbered ACTIVE bank that R123 allows, or the
refresh when all its banks are IDLE with tRP passed (R125, R127, R128). -/
def BackCtl.refreshStep (r : Fin 2) (t : Nat) (b : BackCtl) : Option PathCmd :=
  if (List.finRange 8).all fun i => (b.bank r i).row.isNone then
    if (List.finRange 8).all fun i => since (b.bank r i).lastPre b.timing.tRP t then some (.refresh r) else none
  else ((List.finRange 8).find? fun i => b.mayPrechargeCmd r i t).map fun i => .precharge r i

/-- A rank is idle: NORMAL, with no request in the queue (R127). -/
def BackCtl.rankIdle (r : Fin 2) (b : BackCtl) : Bool :=
  b.ranks[r].state == .normal && !(b.queue.any fun q => q.place.rank == r)

/-- A bank's row is due to close (R124). -/
def BackCtl.dueToClose (r : Fin 2) (i : Fin 8) (t : Nat) (b : BackCtl) : Bool :=
  (b.timing.tIDLE == 0 || since (b.bank r i).lastCol b.timing.tIDLE t) &&
    !(b.queue.any fun q => q.place.rank == r && q.place.bank == i && (b.bank r i).row == some q.place.row)

/-- The precharge or activation a request in service needs, if it may be issued at `t` (R125 place 3, R135). -/
def BackCtl.prepare (q : BackReq) (t : Nat) (b : BackCtl) : Option PathCmd :=
  let p := q.place
  match (b.bank p.rank p.bank).row with
  | none => if b.mayActivate p.rank p.bank t then some (.activate p.rank p.bank p.row) else none
  | some x =>
    if x = p.row then none
    else if b.mayPrechargeCmd p.rank p.bank t then some (.precharge p.rank p.bank) else none

/-- The command the path carries at clock `t`: the first of R125's list whose conditions hold. -/
def BackCtl.pathCommand (t : Nat) (b : BackCtl) : Option PathCmd :=
  let place1 := (List.finRange 2).findSome? fun r => if b.ranks[r].state == .forced then b.refreshStep r t else none
  let place2 := match b.served.head? with
    | some q => if b.mayColumn q t then some (PathCmd.column q.id) else none
    | none => none
  let place3 := b.served.findSome? fun q => b.prepare q t
  let place4 := (List.finRange 2).findSome? fun r =>
    if b.rankIdle r && decide (1 ≤ b.ranks[r].due) then b.refreshStep r t else none
  let place5 := (allBanks.find? fun p => b.dueToClose p.1 p.2 t && b.mayPrechargeCmd p.1 p.2 t).map
    fun p => PathCmd.precharge p.1 p.2
  place1 <|> place2 <|> place3 <|> place4 <|> place5

/-- The command that is issued at clock `t`: the part has power, START-UP has ended, `t` is not past, nothing that is due
at it is left, and no command has been issued at it (R118, R125, R139, R140; log entry 8). -/
def issued (t : Nat) (s : State) : Option PathCmd :=
  if live s && s.back.startUp.isNone && decide (s.back.clock ≤ t) && (s.back.advance t).timely t &&
      since s.back.lastCommand 1 t then
    s.back.pathCommand t
  else none

/-- The record of a command's issue. -/
def BackCtl.stamp (t : Nat) (b : BackCtl) : BackCtl := { b.advance t with lastCommand := some t }

/-- A precharge: the bank becomes IDLE (R119). -/
def BackCtl.precharged (r : Fin 2) (i : Fin 8) (t : Nat) (b : BackCtl) : BackCtl :=
  b.onBank r i fun k => { k with row := none, lastPre := some t, closing := none }

/-- An activation: the bank's row and last activation, and the rank's history of four (R119). -/
def BackCtl.activated (r : Fin 2) (i : Fin 8) (row : BitVec 14) (t : Nat) (b : BackCtl) : BackCtl :=
  (b.onBank r i fun k => { k with row := some row, lastAct := some t }).onRank r fun k =>
    { k with history := (k.history ++ [t]).drop (k.history.length + 1 - 4) }

/-- A refresh command (R127, R128). -/
def BackCtl.refreshed (r : Fin 2) (t : Nat) (b : BackCtl) : BackCtl :=
  b.onRank r fun k => { k with state := .refreshing, due := k.due - 1, lastRefresh := some t }

/-- A column command: the request leaves the service list and the queue, its burst is on its way, and the records are
written (R119, R123, R135). -/
def BackCtl.columned (q : BackReq) (t : Nat) (b : BackCtl) : BackCtl :=
  let p := q.place
  let c := b.burstStart q.write t
  let left : BackCtl := { b with
    queue := b.queue.filter fun x => !(x.id == q.id)
    service := b.service.filter fun x => !(x == q.id)
    bursts := b.bursts ++ [{ req := q, start := c, finish := c + 4 }]
    dataPath := some { rank := p.rank, write := q.write, finish := c + 4 } }
  left.onBank p.rank p.bank fun k => { k with
    lastCol := some t, lastRead := if q.write then k.lastRead else some t, closing := if b.timing.tIDLE = 0 then some t else none }

/-! ## Selection -/

/-- A request's eligibility but for the claim of urgent requests (R133, first four conditions). -/
def BackCtl.selectable (q : BackReq) (b : BackCtl) : Bool :=
  !q.inService && !((b.queue.takeWhile fun x => !(x.id == q.id)).any fun x => x.line == q.line) &&
    b.ranks[q.place.rank].state == .normal &&
    !(b.served.any fun x => x.place.rank == q.place.rank && x.place.bank == q.place.bank && x.place.row != q.place.row)

/-- The oldest request in the queue for a request's back line (R132). -/
def BackCtl.lineHead (q : BackReq) (b : BackCtl) : BackReq := (b.queue.find? fun x => x.line == q.line).getD q

/-- Whether an urgent request that is not eligible claims a request's bank (R133, last condition), be it waiting or in
service. One that waits only for an older request of its own line leaves the claim to that one (R134; log entry 37). -/
def BackCtl.claimed (q : BackReq) (b : BackCtl) : Bool :=
  b.queue.any fun x => x.urgent && !b.selectable (b.lineHead x) && x.place.rank == q.place.rank &&
    x.place.bank == q.place.bank && x.id != q.id

/-- Eligibility (R133). -/
def BackCtl.eligible (q : BackReq) (b : BackCtl) : Bool := b.selectable q && !b.claimed q

/-- A row hit, by the bank record (R133). -/
def BackCtl.rowHit (q : BackReq) (b : BackCtl) : Bool := (b.bank q.place.rank q.place.bank).row == some q.place.row

/-- The request the arbiter selects: the oldest urgent eligible one, else the oldest eligible row hit, else the oldest
eligible one (R133). -/
def BackCtl.choice (b : BackCtl) : Option BackReq :=
  (b.queue.find? fun q => q.urgent && b.eligible q) <|>
    (b.queue.find? fun q => b.rowHit q && b.eligible q) <|>
    (b.queue.find? fun q => b.eligible q)

/-- A WAITING request passed over once (R134). -/
def BackReq.passed (q : BackReq) : BackReq :=
  if q.inService then q
  else { q with passOver := min (q.passOver + 1) Limit.passOver, urgent := q.urgent || decide (Limit.passOver ≤ q.passOver + 1) }

/-- Selection of a request: the older WAITING ones are passed over, and it is IN SERVICE, last in the list (R133, R134). -/
def BackCtl.select (q : BackReq) (b : BackCtl) : BackCtl :=
  let older := b.queue.takeWhile fun x => !(x.id == q.id)
  let rest := b.queue.dropWhile fun x => !(x.id == q.id)
  { b with
    queue := older.map BackReq.passed ++ rest.map fun x => if x.id == q.id then { x with inService := true } else x
    service := b.service ++ [q.id] }

/-! ## Forcing and refresh -/

/-- A request in service for a FORCED rank returns to WAITING; its count is raised to the largest of the younger requests
for its line (R128). -/
def returnRequest (r : Fin 2) : List BackReq → List BackReq
  | [] => []
  | q :: rest =>
    (if q.inService && q.place.rank == r then
      let largest := ((rest.filter fun x => x.line == q.line).map BackReq.passOver).foldl max q.passOver
      { q with inService := false, passOver := largest, urgent := q.urgent || decide (Limit.passOver ≤ largest) }
    else q) :: returnRequest r rest

/-- A rank becomes FORCED: its unissued requests in service leave the service list (R128). -/
def BackCtl.force (r : Fin 2) (b : BackCtl) : BackCtl :=
  let left : BackCtl := { b with
    service := b.service.filter fun id => match b.request id with
      | some q => !(q.place.rank == r)
      | none => false
    queue := returnRequest r b.queue }
  left.onRank r fun k => { k with state := .forced }

/-- A noted return of a rank's timer is taken: the due rises by 1, up to 8; a NORMAL rank that reaches 8 is FORCED (R126,
R128). -/
def BackCtl.takeAccrual (r : Fin 2) (b : BackCtl) : BackCtl :=
  let b' := b.onRank r fun k => { k with accrued := k.accrued - 1, due := min (k.due + 1) Limit.refreshDue }
  if b'.ranks[r].due == Limit.refreshDue && b'.ranks[r].state == .normal then b'.force r else b'

/-- The clock at which a rank's timer next returns to 0 (R126). -/
def BackCtl.accrualClock (r : Fin 2) (b : BackCtl) : Nat := b.clock + b.ranks[r].untilAccrual b.timing.tREFI

/-- A refresh accrues (R126): a return of the timer that the clock has passed already, or else the next one, at its
clock. -/
def BackCtl.accrue (r : Fin 2) (b : BackCtl) : BackCtl :=
  if b.ranks[r].accrued = 0 then (b.advance (b.accrualClock r)).takeAccrual r else b.takeAccrual r

/-- A refresh ends: the rank is NORMAL, or FORCED when its due is 8 again (R127, R128). -/
def BackCtl.endRefresh (r : Fin 2) (b : BackCtl) : BackCtl :=
  let b' := (b.advance (b.refreshEndClock r)).onRank r fun k => { k with state := .normal }
  if b'.ranks[r].due == Limit.refreshDue then b'.force r else b'

/-- The clock of the start-up precharge (R140). -/
def StartUp.prechargeClock (u : StartUp) : Nat := u.start + (if u.powerUp then Limit.powerUpClocks else 0)

/-- START-UP ends tRP clocks after the start-up precharge (R140). -/
def BackCtl.endStartUp (u : StartUp) (b : BackCtl) : BackCtl :=
  { b.advance (u.prechargeClock + b.timing.tRP) with
    banks := Vector.replicate 16 { Bank.reset with lastPre := some u.prechargeClock }
    ranks := Vector.replicate 2 .reset
    dataPath := none
    startUp := none }

/-! ## Bursts -/

/-- Hand a front read's line over (R32, R89, R83, R15). -/
def frontRead (x : Slot) (b : BackLine) (line : Line) (s : State) : State :=
  let tag := x.txn.tag
  match x.region with
  | some .key =>
    match (if x.keyLost then none else lineKey s x.txn.dom) with
    | none => refuse tag .closed .noReason s
    | some k =>
      match x.txn.dir with
      | .read => respond tag .done (decipher k b line) s
      | .write => offerWrite tag b (mergeLine (decipher k b line) x.txn.data x.txn.enables) s
  | some .map =>
    match mapKey s with
    | none => s
    | some k => respond tag .done (decipher k b line) s
  | some .raw =>
    match x.txn.dir with
    | .read => respond tag .done line s
    | .write => offerWrite tag b (mergeLine line x.txn.data x.txn.enables) s
  | _ => respond tag .done line s

/-- The slot that awaits a request's burst. -/
def slotAwaiting (id : Nat) (s : State) : Option Slot :=
  s.front.slots.find? fun x => match x.phase with
    | .readOut _ i => i == id
    | _ => false

/-- The walk that awaits a request's burst. -/
def walkAwaiting (id : Nat) (s : State) : Option Walk := s.xlat.walks.find? fun w => w.req == some id

/-- The Update List entry that awaits a request's burst. -/
def updateAwaiting (id : Nat) (s : State) : Option UpdateEntry :=
  s.maps.updates.find? fun u => u.state == .reading (some id)

/-- The combining write that awaits a request's burst. -/
def combineAwaiting (id : Nat) (s : State) : Option CompOp :=
  match s.entry.work with
  | some (.component c) => if c.stage = .reading (some id) then some c else none
  | _ => none

/-- The burst leaves the data path, and its completion is reported, at its end clock: once the fourth clock of its data, which
carries the eighth beat, is over (R136; log entry 49). -/
def takeBurst (x : Burst) (s : State) : State :=
  s.onBack fun b => { b.advance x.finish with bursts := b.bursts.tail }

/-- A walk's burst has arrived (R60). -/
def walkArrives (w : Walk) (x : Burst) (s : State) : State :=
  match mapKey s with
  | some k => finishWalk w (decipher k x.req.line (s.mem.readLine x.req.line)) (takeBurst x s)
  | none => takeBurst x s

/-- An update's burst has arrived (R36). -/
def updateArrives (u : UpdateEntry) (x : Burst) (s : State) : State :=
  match mapKey s with
  | some k => updateArrived u (decipher k x.req.line (s.mem.readLine x.req.line)) (takeBurst x s)
  | none => takeBurst x s

/-- A combining read's burst has arrived: it is deciphered, combined with the write data, and its line write is offered
(R107). Without a key, which no run finds here, the write is refused CLOSED (R83; log entry 31). -/
def combineArrives (c : CompOp) (x : Burst) (s : State) : State :=
  match lineKey s c.dom, findSlot s c.tag with
  | some k, some y =>
    let line := xorLine (decipher k x.req.line (s.mem.readLine x.req.line)) y.txn.data
    offer .entry (setWork (some (.component { c with stage := .writing line })) (takeBurst x s))
  | _, _ => setWork none (refuse c.tag .closed .noReason (takeBurst x s))

/-- The oldest burst, if it is a read. -/
def arrivingRead (s : State) : Option Burst :=
  match s.back.bursts.head? with
  | some x => if x.req.write then none else some x
  | none => none

/-- A read burst reaches its origin; with none that awaits it, its beats are discarded (R136, R138). -/
def readArrives (x : Burst) (s : State) : State :=
  match x.req.origin with
  | .front =>
    match slotAwaiting x.req.id s with
    | some y => frontRead y x.req.line (s.mem.readLine x.req.line) (takeBurst x s)
    | none => takeBurst x s
  | .walk =>
    match walkAwaiting x.req.id s with
    | some w => walkArrives w x s
    | none => takeBurst x s
  | .update =>
    match updateAwaiting x.req.id s with
    | some u => updateArrives u x s
    | none => takeBurst x s
  | .entry =>
    match combineAwaiting x.req.id s with
    | some c => combineArrives c x s
    | none => takeBurst x s
  | .fill => takeBurst x s
  | .background _ => takeBurst x s

/-- The completion of a write reaches its maker: a LIVE zero fill's is awaited, a background one is counted, the others
are taken without effect (R110, R130, R137, R169). -/
def reportWrite (q : BackReq) (s : State) : State :=
  match q.origin with
  | .fill =>
    match s.entry.work with
    | some (.finalising x d f (.filling left out) rest) =>
      setWork (some (.finalising x d f (.filling left (out.erase q.id)) rest)) s
    | _ => s
  | .background run =>
    if s.cab.bg.op ≠ .idle ∧ s.cab.bg.run = run then
      s.onCab fun c => { c with bg := { c.bg with completed := c.bg.completed + 1 } }
    else s
  | _ => s

/-- A write's data burst has been driven: the line holds it, and the bank's last write is the end clock (R119, R137). -/
def writeDriven (x : Burst) (s : State) : State :=
  (takeBurst x (s.onMem fun m => m.writeLine x.req.line x.req.data x.req.masks)).onBack fun b =>
    b.onBank x.req.place.rank x.req.place.bank fun k => { k with lastWrite := some x.finish }

end Sys2Proof.Machine
end

