-- ==== Sys2Proof/Machine/Alarm.lean ====
section
/-! DEFINITION. Detections, the tamper record and zeroisation (R142, R143, R157, R165 to R167). -/

namespace Sys2Proof.Machine

/-- The tamper record after an alarm (R157). -/
def TamperRecord.after (c : Cause) (now : BitVec 32) (r : TamperRecord) : TamperRecord :=
  if r.valid then
    { r with causes := r.causes ||| c.mark, further := if r.further = 255#8 then 255#8 else r.further + 1#8 }
  else { valid := true, first := some c, time := now, causes := c.mark, further := 0#8 }

/-- An alarm is recorded; TAMPER is raised when it makes the record valid (R157, R159, R186). R191 says of every alarm in
ZEROED that it raises no flag; after ACK-TAMPER the record is not valid there, and the model follows R157 (log
entry 44). -/
def recordAlarm (c : Cause) (s : State) : State :=
  raiseIf (!s.mon.record.valid) .tamper (s.onMon fun m => { m with record := m.record.after c m.seconds })

/-- A domain record VACANT, its epoch kept (R165). -/
def DomRec.vacate (d : DomRec) : DomRec := { DomRec.reset with epoch := d.epoch }

/-- The Seed Store with every seed and the clear-pending mark destroyed (R74, R165). -/
def SeedStore.destroy (x : SeedStore) : SeedStore :=
  { x with root := none, domains := Vector.replicate 64 none, clearPending := false }

/-- The Entry Unit with its list destroyed, no entry domain and both windows SHUT (R165). -/
def EntryUnit.destroy (u : EntryUnit) : EntryUnit :=
  { u with list := [], domain := none, windowA := .reset, windowB := .reset }

/-- Start a background operation at line 0 (R169, R173). -/
def Background.start (op : BgOp) (b : Background) : Background := { op := op, next := 0, completed := 0, run := b.run + 1 }

/-- No background operation is left (R163, R169, R173). -/
def Background.stop (b : Background) : Background := { op := .idle, next := 0, completed := 0, run := b.run }

/-- The sub-state a zeroisation enters (R165). -/
def zeroSub (s : State) : ZeroSub := if live s && s.cab.scrubOn then .scrubbing else .quiet

/-- Seeds, Entry List, domains, clear-pending mark and cabinet state at a zeroisation (R165). -/
def destroyKeys (s : State) : State :=
  { s with
    seeds := s.seeds.destroy
    entry := s.entry.destroy
    doms := s.doms.map DomRec.vacate
    cab := { s.cab with cabinet := .zeroed, sub := zeroSub s } }

/-- Whether a region is one of the three windows (R4). -/
def Region.isWindow : Region → Bool
  | .key => true
  | .map => true
  | .raw => true
  | .plain => false
  | .unclaimed => false

/-- Whether a slot's status is decided (R2). -/
def Slot.responds (x : Slot) : Bool :=
  match x.phase with
  | .responding _ _ => true
  | _ => false

/-- Whether a zeroisation answers an outstanding transaction UNREADY (R167). -/
def Slot.cutOff (x : Slot) : Bool := (regionOf x.txn.line).isWindow && !x.responds

/-- Every window transaction that is not RESPONDING is answered UNREADY (R167). R182 lets their reports be taken in either
order; the order of acceptance is the model's choice (log entry 45). -/
def refuseWindows (s : State) : State :=
  ((s.front.slots.filter Slot.cutOff).map fun x => x.txn.tag).foldl (fun s tag => refuse tag .unready .noReason s) s

/-- Whether a maker goes on waiting through a zeroisation: the PLAIN transactions do (R167). -/
def survivesAlarm (s : State) (w : Waiter) : Bool :=
  match w with
  | .front tag =>
    match findSlot s tag with
    | some x => !(regionOf x.txn.line).isWindow
    | none => false
  | _ => false

/-- A zeroisation reaches the main-domain blocks (R49, R62, R65, R117, R166, R167). -/
def clearMainDomain (s : State) : State :=
  let demapped := (allDemap s).onXlat fun t => { t with walks := [], waiting := [] }
  let emptied := (demapped.onMaps fun _ => .reset).onEntry fun u => { u with waiting := [], work := none }
  let answered := answerLock .state emptied
  let waiting := answered.onBack fun b => { b with waiting := b.waiting.filter (survivesAlarm s) }
  let background := waiting.onCab fun c =>
    { c with bg := if c.sub = .scrubbing then c.bg.start .scrub else c.bg.stop }
  refuseWindows background

/-- Zeroisation (R165), and on mains its reach into the main domain (R166). -/
def zeroiseCabinet (s : State) : State :=
  if live s then clearMainDomain (destroyKeys s) else destroyKeys s

/-- An alarm: the record is updated, and the State Unit zeroises a cabinet that is not ZEROED already (R143, R165). -/
def alarm (c : Cause) (s : State) : State :=
  let recorded := recordAlarm c s
  if s.cab.cabinet = .zeroed then recorded else zeroiseCabinet recorded

/-- ARMED in every cabinet state but BLANK (R142). -/
def armed (s : State) : Bool := s.cab.cabinet != .blank

/-- A detection: an alarm while ARMED, else its cause joins the test set (R142, R143). -/
def detect (c : Cause) (s : State) : State :=
  if armed s then alarm c s else s.onMon fun m => { m with testSet := m.testSet ||| c.mark }

end Sys2Proof.Machine
end

