-- ==== Sys2Proof/Machine/Pulse.lean ====
section
/-! DEFINITION. Run pulses: what a pulse counts, and the leases and windows that end at it (R27, R85, R98). The table gives
each lease and each window that ends a row of its own, LEASE_EXPIRY and WINDOW_LAPSE; what the pulse ends is still taken
before any command that could tell (R85, R86, R98; log entry 9). -/

namespace Sys2Proof.Machine

/-! ## Counting -/

/-- A domain record at a run pulse: an OPEN issuer domain's lease falls by 1; where it would reach 0, LEASE_EXPIRY is to
take the end of the lease (R85; log entry 9). -/
def DomRec.pulse (r : DomRec) : DomRec :=
  if r.state = .opened then
    if r.lease.toNat ≤ 1 then { r with ending := true } else { r with lease := r.lease - 1#16 }
  else r

/-- A window at a run pulse (R98): as a lease, with WINDOW_LAPSE. -/
def Window.pulse (w : Window) : Window :=
  if w.state = .opened then
    if w.remaining.toNat ≤ 1 then { w with ending := true } else { w with remaining := w.remaining - 1#16 }
  else w

/-! ## Ending -/

/-- A run ends by command or expiry: CLOSED, lease 0, no staged extension, and a domain demap (R81, R85). -/
def endRun (d : DomId) (s : State) : State :=
  domainDemap d (onDom d (fun r => { r with state := .closed, lease := 0#16, staged := none, ending := false }) s)

/-- The mark of a domain in the expired set (R189). -/
def domMark (d : DomId) : BitVec 64 := (1#64 : BitVec 64) <<< d.toNat

/-- A lease ends: a staged extension takes its place, or the domain closes as expired (R85). -/
def expireLease (d : DomId) (s : State) : State :=
  let r := s.doms[domIx d]
  if live s = true ∧ r.ending = true ∧ r.state = .opened then
    match r.staged with
    | some n => raise .runExtended (onDom d (fun x => { x with lease := n, staged := none, ending := false }) s)
    | none => raise .leaseExpired ((endRun d s).onEv fun e => { e with expired := e.expired ||| domMark d })
  else s

/-- A window lapses, and its finalisation is requested (R98). -/
def lapse (x : Custodian) (s : State) : State :=
  if live s = true ∧ (s.entry.window x).ending = true ∧ (s.entry.window x).state = .opened then
    s.onEntry fun u =>
      (u.onWindow x fun _ => { state := .lapsed, remaining := 0#16, ending := false }).request (.finalise x)
  else s

/-! ## The whole of a pulse -/

/-- Whether a lease or a window that ends at a pulse has still to be taken. -/
def pulseOpen (s : State) : Bool :=
  (List.finRange 64).any (fun d => s.doms[d].state == .opened && s.doms[d].ending) ||
    (s.entry.windowA.state == .opened && s.entry.windowA.ending) ||
    (s.entry.windowB.state == .opened && s.entry.windowB.ending)

/-- Every domain, lowest number first. -/
def allDomains : List DomId := (List.finRange 64).map fun d => BitVec.ofNat 6 d.val

/-- What the last run pulse ended and no row has taken yet is taken: leases, then windows (R85, R98; log entry 9). -/
def afterPulse (s : State) : State :=
  if live s = true ∧ pulseOpen s = true then
    lapse .b (lapse .a (allDomains.foldl (fun s d => expireLease d s) s))
  else s

/-- The ALERT output (R187). -/
def alertOutput (s : State) : Bool := live s && ((afterPulse s).ev.flags &&& (afterPulse s).ev.enables) != 0#11

end Sys2Proof.Machine
end

