-- ==== Sys2Proof/Machine/BackRows.lean ====
section
/-! DEFINITION. The commands of the Back Controller and of background traffic: one meaning for each row (chapter 7,
R169, R173). A DRAM command carries the back clock of its issue, and is issued only where R125 gives it the command path
at that clock. -/

namespace Sys2Proof.Machine

/-! ## Selection and the command path -/

/-- A selection (R133), once START-UP has ended (R140) and nothing that is due is left (log entry 8). -/
def selectNext (s : State) : State :=
  match s.back.choice with
  | some q =>
    if live s = true ∧ s.back.startUp = none ∧ s.back.timely s.back.clock = true ∧ s.back.service.length < Limit.service then
      s.onBack (.select q)
    else s
  | none => s

/-- SELECTION (R133). -/
def execSelection (s : State) : Host.Outcome State Fault Refusal := .next (selectNext s)

/-- An activation at clock `t` (R121). -/
def issueActivation (t : Nat) (s : State) : State :=
  match issued t s with
  | some (.activate r i row) => s.onBack fun b => (b.activated r i row t).stamp t
  | _ => s

/-- ACTIVATION (R121). -/
def execActivation (t : Nat) (s : State) : Host.Outcome State Fault Refusal := .next (issueActivation t s)

/-- A precharge at clock `t` (R123). -/
def issuePrecharge (t : Nat) (s : State) : State :=
  match issued t s with
  | some (.precharge r i) => s.onBack fun b => (b.precharged r i t).stamp t
  | _ => s

/-- PRECHARGE (R123). -/
def execPrecharge (t : Nat) (s : State) : Host.Outcome State Fault Refusal := .next (issuePrecharge t s)

/-- A bank whose column command carried an automatic precharge is precharged at the first clock R123 allows (R123). -/
def autoPrecharge (r : Fin 2) (i : Fin 8) (s : State) : State :=
  let t := s.back.autoClock r i
  if live s = true ∧ (s.back.bank r i).closing.isSome = true then s.onBack fun b => (b.precharged r i t).advance t else s

/-- AUTOMATIC_PRECHARGE (R123). -/
def execAutomaticPrecharge (r : Fin 2) (i : Fin 8) (s : State) : Host.Outcome State Fault Refusal :=
  .next (autoPrecharge r i s)

/-- The read or write command of the first request in service, at clock `t` (R122, R135). -/
def issueColumn (t : Nat) (s : State) : State :=
  match issued t s with
  | some (.column id) =>
    match s.back.request id with
    | some q => s.onBack fun b => (b.columned q t).stamp t
    | none => s
  | _ => s

/-- COLUMN_COMMAND (R135). -/
def execColumnCommand (t : Nat) (s : State) : Host.Outcome State Fault Refusal := .next (issueColumn t s)

/-! ## Bursts -/

/-- The oldest burst is a read: it reaches its origin (R136, R138). -/
def finishRead (s : State) : State :=
  match arrivingRead s with
  | some x => if live s then readArrives x s else s
  | none => s

/-- READ_BURST (R136). -/
def execReadBurst (s : State) : Host.Outcome State Fault Refusal := .next (finishRead (afterPulse s))

/-- The oldest burst is a write: its line holds the new contents, and its maker takes the report (R137). -/
def finishWrite (s : State) : State :=
  match s.back.bursts.head? with
  | some x => if live s = true ∧ x.req.write = true then reportWrite x.req (writeDriven x s) else s
  | none => s

/-- WRITE_COMPLETION (R137). -/
def execWriteCompletion (s : State) : Host.Outcome State Fault Refusal := .next (finishWrite s)

/-! ## Refresh and start-up -/

/-- A refresh accrues, once START-UP has ended (R126, R128). -/
def accrueRefresh (r : Fin 2) (s : State) : State :=
  if live s = true ∧ s.back.startUp = none then s.onBack (.accrue r) else s

/-- REFRESH_ACCRUAL (R126). -/
def execRefreshAccrual (r : Fin 2) (s : State) : Host.Outcome State Fault Refusal := .next (accrueRefresh r s)

/-- A refresh at clock `t` (R127, R128). -/
def issueRefresh (t : Nat) (s : State) : State :=
  match issued t s with
  | some (.refresh r) => s.onBack fun b => (b.refreshed r t).stamp t
  | _ => s

/-- REFRESH (R127). -/
def execRefresh (t : Nat) (s : State) : Host.Outcome State Fault Refusal := .next (issueRefresh t s)

/-- A rank's refresh ends, tRFC clocks after it (R127, R128). -/
def finishRefresh (r : Fin 2) (s : State) : State :=
  if live s = true ∧ s.back.ranks[r].state = .refreshing then s.onBack (.endRefresh r) else s

/-- REFRESH_END (R127). -/
def execRefreshEnd (r : Fin 2) (s : State) : Host.Outcome State Fault Refusal := .next (finishRefresh r s)

/-- START-UP ends (R140). -/
def finishStartUp (s : State) : State :=
  match s.back.startUp with
  | some u => if live s then s.onBack (.endStartUp u) else s
  | none => s

/-- START_UP_END (R140). -/
def execStartUpEnd (s : State) : Host.Outcome State Fault Refusal := .next (finishStartUp s)

/-! ## Background operations -/

/-- The line a background operation offers next, with its contents, if it has one left: a map line of zeros enciphered
under the map key, or a plain zero line of the protected area (R169, R173). -/
def backgroundLine (s : State) : Option (BackLine × Line) :=
  match s.cab.bg.op with
  | .idle => none
  | .mapClear =>
    if s.cab.bg.next < Limit.mapLines then
      let l := mapBackLine s.seeds.pab (BitVec.ofNat 17 s.cab.bg.next)
      (mapKey s).map fun k => (l, encipher k l zeroLine)
    else none
  | .scrub =>
    if s.cab.bg.next < Limit.areaLines then some (backLineAt (pabBase s.seeds.pab + s.cab.bg.next * 64), zeroLine)
    else none

/-- The State Unit offers its next background line; it enters the Back Queue, or waits (R131, R169, R173). -/
def offerBackground (s : State) : State :=
  match backgroundLine s with
  | some (l, data) =>
    if live s then
      if mayEnter .background s then
        (enqueueWrite l (.background s.cab.bg.run) data (endWait .background s)).onCab fun c =>
          { c with bg := { c.bg with next := c.bg.next + 1 } }
      else beginWait .background s
    else s
  | none => s

/-- BACKGROUND_LINE_OFFER (R169). -/
def execBackgroundLineOffer (s : State) : Host.Outcome State Fault Refusal := .next (offerBackground s)

/-- The end of a scrub, once its last completion is counted (R169). WRITE_COMPLETION, which counts it, is a row of its own,
and another command may come between the two (log entry 43). -/
def finishScrub (s : State) : State :=
  if live s = true ∧ s.cab.bg.op = .scrub ∧ Limit.areaLines ≤ s.cab.bg.completed then
    raise .scrubDone (s.onCab fun c => { c with sub := .quiet, bg := c.bg.stop })
  else s

/-- SCRUB_DONE (R169). -/
def execScrubDone (s : State) : Host.Outcome State Fault Refusal := .next (finishScrub s)

/-- The end of a map clear, once its last completion is counted (R173). WRITE_COMPLETION, which counts it, is a row of its
own, and another command may come between the two (log entry 43). -/
def finishClear (s : State) : State :=
  if live s = true ∧ s.cab.bg.op = .mapClear ∧ Limit.mapLines ≤ s.cab.bg.completed then
    raise .clearDone ((s.onSeeds fun x => { x with clearPending := false }).onCab fun c =>
      { c with cabinet := .ready, bg := c.bg.stop })
  else s

/-- CLEAR_DONE (R173). -/
def execClearDone (s : State) : Host.Outcome State Fault Refusal := .next (finishClear s)

end Sys2Proof.Machine
end

