-- ==== Sys2Proof/Machine/FrontRows.lean ====
section
/-! DEFINITION. The commands of the front port, the translation buffers and the map: one meaning for each row
(chapters 1, 3 and 4). A row whose conditions do not hold leaves the state as it stands (log entry 5). A row that
reads a domain's state first takes what the last run pulse ended (log entry 9). -/

namespace Sys2Proof.Machine

/-! ## Front port -/

/-- A transaction is presented at the port: accepted, or held when no slot is FREE or its tag is in use (R3). -/
def presentTxn (t : Txn) (s : State) : State :=
  if live s = true ∧ s.front.held = none then
    if acceptable s t then accept t s else s.onFront fun p => { p with held := some t }
  else s

/-- FRONT_TRANSACTION (R3). -/
def execFrontTransaction (t : Txn) (s : State) : Host.Outcome State Fault Refusal := .next (presentTxn t (afterPulse s))

/-- The held transaction is accepted once the port can take it (R3). -/
def acceptHeld (s : State) : State :=
  match s.front.held with
  | some t =>
    if live s = true ∧ acceptable s t = true then accept t (s.onFront fun p => { p with held := none }) else s
  | none => s

/-- HELD_TRANSACTION_ACCEPTED (R3). -/
def execHeldTransactionAccepted (s : State) : Host.Outcome State Fault Refusal := .next (acceptHeld (afterPulse s))

/-- A FOLLOWING transaction that is the oldest to its line starts (R8, R10). The delivery of the response before it has
started it already (R14), so the row finds one in no state that a run reaches (log entry 43). -/
def startFollowing (tag : Tag) (s : State) : State :=
  match findSlot s tag with
  | some x => if live s = true ∧ x.phase = .following ∧ oldestOnLine s x = true then startTxn tag s else s
  | none => s

/-- FOLLOWING_START (R8). -/
def execFollowingStart (tag : Tag) (s : State) : Host.Outcome State Fault Refusal := .next (startFollowing tag (afterPulse s))

/-- The response of a slot (R12, R13): its beats for a read, none for a write. -/
def responseOf (t : Txn) (st : Status) (data : Line) : Response :=
  { tag := t.tag, status := st, beats := if t.dir = .read then burstBeats data t.beat else [] }

/-- The next transaction to a front line starts, if it is FOLLOWING (R8, R14). -/
def startNext (l : FrontLine) (s : State) : State :=
  match s.front.slots.find? fun y => y.txn.line == l with
  | some y => if y.phase = .following then startTxn y.txn.tag s else s
  | none => s

/-- The response of the oldest outstanding transaction to its line is delivered, its slot is FREE, and the next FOLLOWING
transaction to that line starts (R2, R8, R10, R14). -/
def deliver (tag : Tag) (s : State) : State :=
  match findSlot s tag with
  | some x =>
    match x.phase with
    | .responding st data =>
      if live s = true ∧ oldestOnLine s x = true then
        startNext x.txn.line (s.onFront fun p => { p with
          slots := p.slots.filter fun y => !(y.txn.tag == tag), response := some (responseOf x.txn st data) })
      else s
    | _ => s
  | none => s

/-- RESPONSE_DELIVERY (R14). -/
def execResponseDelivery (tag : Tag) (s : State) : Host.Outcome State Fault Refusal := .next (deliver tag (afterPulse s))

/-- The waiting maker whose turn it is enters the Back Queue (R131). Update writes, fills and background writes enter in
rows of their own. -/
def queueEntry (s : State) : State :=
  match firstReady s with
  | some (.updateWrite _) => s
  | some .fill => s
  | some .background => s
  | some w => if live s then enter w (endWait w s) else s
  | none => s

/-- BACK_QUEUE_ENTRY (R131). -/
def execBackQueueEntry (s : State) : Host.Outcome State Fault Refusal := .next (queueEntry s)

/-! ## Walks -/

/-- The oldest burst is a walk's, and a walk awaits it (R60). -/
def completeWalk (s : State) : State :=
  match arrivingRead s with
  | some x =>
    match walkAwaiting x.req.id s with
    | some w => if live s = true ∧ x.req.origin = .walk then walkArrives w x s else s
    | none => s
  | none => s

/-- WALK_COMPLETION (R60). -/
def execWalkCompletion (s : State) : Host.Outcome State Fault Refusal := .next (completeWalk (afterPulse s))

/-- The first released transaction, in the order they began to wait, repeats its lookup (R58). -/
def repeatFirst (s : State) : State :=
  match s.xlat.waiting.find? fun w => w.released with
  | some w => if live s then repeatLookup w s else s
  | none => s

/-- WAITING_LOOKUP_REPEAT (R58). -/
def execWaitingLookupRepeat (s : State) : Host.Outcome State Fault Refusal := .next (repeatFirst (afterPulse s))

/-! ## Map Unit -/

/-- A held map-window read whose line has no Update List entry resumes (R32): its line read is offered. An update that is
taken later, while the read still waits to enter the Back Queue, does not make it wait again (log entry 46). -/
def resumeMapRead (tag : Tag) (s : State) : State :=
  match findSlot s tag with
  | some x =>
    if live s = true ∧ x.phase = .mapReadHeld ∧ findUpdate s (mapWindowLine x.txn.line) = none then
      offerRead tag (mapBackLine s.front.pabCopy (mapWindowLine x.txn.line)) s
    else s
  | none => s

/-- MAP_READ_RESUME (R32). -/
def execMapReadResume (tag : Tag) (s : State) : Host.Outcome State Fault Refusal := .next (resumeMapRead tag s)

/-- A waiting update request is taken (R34). -/
def takePicked (pick : UpdatePick) (s : State) : State :=
  match MapUnit.picked pick s.maps.requests with
  | some q => if live s = true ∧ s.maps.mayTake q.1 q.2 = true then takeUpdate q.2 s else s
  | none => s

/-- UPDATE_TAKEN (R34). -/
def execUpdateTaken (pick : UpdatePick) (s : State) : Host.Outcome State Fault Refusal := .next (takePicked pick s)

/-- The oldest burst is an update's line read, and its entry awaits it (R36). -/
def arriveUpdate (s : State) : State :=
  match arrivingRead s with
  | some x =>
    match updateAwaiting x.req.id s with
    | some u => if live s = true ∧ x.req.origin = .update then updateArrives u x s else s
    | none => s
  | none => s

/-- UPDATE_LINE_READ_ARRIVAL (R36). -/
def execUpdateLineReadArrival (s : State) : Host.Outcome State Fault Refusal := .next (arriveUpdate s)

/-- An entry that holds its room sends its line write when that may enter (R36). -/
def writeUpdate (k : MapLine) (s : State) : State :=
  match findUpdate s k, mapKey s with
  | some u, some key =>
    if live s = true ∧ u.state = .writing true ∧ mayEnter (.updateWrite k) s = true then sendUpdate u key s else s
  | _, _ => s

/-- UPDATE_LINE_WRITE (R36). -/
def execUpdateLineWrite (k : MapLine) (s : State) : Host.Outcome State Fault Refusal := .next (writeUpdate k s)

/-- A WAITING merge whose line has no fill left enters READING (R47). -/
def releaseMerge (k : MapLine) (s : State) : State :=
  match findUpdate s k with
  | some u =>
    if live s = true ∧ u.state = .waiting ∧ (s.maps.fills.any fun x => x.line == k) = false then
      offer (.updateRead k) (onUpdate k (fun v => { v with state := .reading none }) s)
    else s
  | none => s

/-- MERGE_RELEASE (R47). -/
def execMergeRelease (k : MapLine) (s : State) : Host.Outcome State Fault Refusal := .next (releaseMerge k s)

/-- The oldest fill issues its next line, waits to, or goes because its domain has no key (R45, R46). -/
def writeFill (s : State) : State :=
  match s.maps.fills with
  | [] => s
  | x :: _ =>
    if live s then
      match lineKey s x.dom with
      | none => dropOldestFill s
      | some key => if mayEnter .fill s then sendFill x key s else beginWait .fill s
    else s

/-- FILL_LINE_WRITE (R45). -/
def execFillLineWrite (s : State) : Host.Outcome State Fault Refusal := .next (writeFill s)

end Sys2Proof.Machine
end

