-- ==== Sys2Proof/Machine/Power.lean ====
section
/-! DEFINITION. Mains loss, mains return, RST and first battery connection (R164, R177 to R180). -/

namespace Sys2Proof.Machine

/-- The main domain at its reset values and without power: what every event that stops it leaves (R17, R71, R139, R177).
Battery-domain state is kept. -/
def mainReset (s : State) : State :=
  { s with
    front := .reset s.seeds.pab
    xlat := .reset
    maps := .reset
    entry := { s.entry with windowA := .reset, windowB := .reset, waiting := [], work := none }
    run := { s.run with counter := 0 }
    back := .restart s.back.timing s.back.clock s.back.nextId none
    cab := { s.cab with bg := s.cab.bg.stop }
    ev := .lost
    link := .reset s.link.strap }

/-- A domain's run ends at mains loss or RST (R92). -/
def DomRec.loseRun (d : DomRec) : DomRec :=
  if d.state = .opened then { d with state := .closed, lease := 0#16, staged := none, ending := false } else d

/-- What stops at mains loss and at RST alike (R92, R100, R177, R179). -/
def stopMain (s : State) : State := (mainReset s).onDoms fun v => v.map DomRec.loseRun

/-- The Tamper Monitor at the fall of PGOOD (R145, R147). -/
def Monitor.mainsLost (m : Monitor) : Monitor :=
  { m with channels := m.channels.set 0 { m.channels[0] with count := 0 }, pace := 0 }

/-- PGOOD falls (R177): the memory loses its power as well. The RST line keeps its level (log entry 25). -/
def losePower (s : State) : State :=
  let stopped := stopMain s
  { stopped with
    cab := { stopped.cab with power := .battery }
    mon := s.mon.mainsLost
    mem := .blank (s.mem.era + 1) }

/-- The memory once every write burst that had begun is driven (R139). -/
def finishBursts (b : BackCtl) (m : Memory) : Memory :=
  (b.bursts.filter fun x => x.req.write && decide (x.start ≤ b.clock)).foldl
    (fun m x => m.writeLine x.req.line x.req.data x.req.masks) m

/-- The level of the RST line (R164). -/
def setRst (asserted : Bool) (s : State) : State := s.onCab fun c => { c with rst := asserted }

/-- RST is asserted on mains (R179): as mains loss, but power, memory and converter pace stay. -/
def assertReset (s : State) : State :=
  let stopped := stopMain s
  { stopped with cab := { stopped.cab with rst := true }, mem := finishBursts s.back s.mem }

/-- The cabinet state at mains return and at the end of RST (R178). -/
def CabState.atReturn : CabState → CabState
  | .ready => .restore
  | .restore => .restore
  | .clearing => .clearing
  | .zeroed => .zeroed
  | .blank => .blank

/-- The State Unit at mains return and at the end of RST: the cabinet moves, a map clear that is owed restarts, and a
scrub is not resumed (R170, R174, R178). -/
def StateUnit.atReturn (c : StateUnit) : StateUnit :=
  { c with
    cabinet := c.cabinet.atReturn
    sub := .quiet
    bg := if c.cabinet = .clearing then c.bg.start .mapClear else c.bg.stop }

/-- The main domain begins work again (R140, R178, R179, R190, R192, R199). -/
def beginMain (powerUp : Bool) (strap : BitVec 2) (s : State) : State :=
  let m := mainReset s
  { m with
    back := .restart s.back.timing s.back.clock s.back.nextId (some { powerUp := powerUp, start := s.back.clock })
    cab := s.cab.atReturn
    ev := .atReturn s.mon.record.valid
    link := .reset strap }

/-- PGOOD rises while RST is asserted: the cabinet moves as R178 says, and the main domain is held at its reset values
until RST ends (R164); the address strap is sampled, as at every mains return (R192, R199). The DRAM's power-up sequence is
then still to be made (log entry 25). -/
def holdMain (strap : BitVec 2) (s : State) : State :=
  let m := mainReset s
  { m with
    back := .restart s.back.timing s.back.clock s.back.nextId (some { powerUp := true, start := s.back.clock })
    cab := { s.cab.atReturn with bg := s.cab.bg.stop }
    link := .reset strap }

/-- PGOOD rises (R178). -/
def returnPower (strap : BitVec 2) (s : State) : State :=
  let up := s.onCab fun c => { c with power := .mains }
  if s.cab.rst then holdMain strap up else beginMain true strap up

/-- RST ends on mains (R179), with a power-up sequence if mains returned under it (log entry 25). -/
def endReset (strap : BitVec 2) (s : State) : State :=
  beginMain s.back.startUp.isSome strap (setRst false s)

/-- The part at first battery connection, before mains first comes up (R180). The queue, what is still to arrive, the level
of the RST line and the seed generator are not the part's stored state. -/
def coldState (s : State) : State :=
  { State.reset with
    seeds := { SeedStore.reset with made := s.seeds.made }
    back := .restart .reset 0 0 none
    cab := { StateUnit.reset with power := .battery, rst := s.cab.rst }
    ev := .lost
    mem := .blank (s.mem.era + 1)
    pending := s.pending
    arrivals := s.arrivals }

/-- First battery connection; PGOOD already high is taken as a mains return (R180). -/
def connectBattery (pgood : Bool) (strap : BitVec 2) (s : State) : State :=
  if pgood then returnPower strap (coldState s) else coldState s

end Sys2Proof.Machine
end

