-- ==== Sys2Proof/Machine/Watch.lean ====
section
/-! DEFINITION. What the Tamper Monitor measures: conversions and their judgement, mesh drive and sense, alarm conditions,
and the sampling of switched inputs (R94, R144 to R154, R161). -/

namespace Sys2Proof.Machine

/-! ## The converter -/

/-- The code of an analog input: floor(256 × Vin ÷ 2.5 V), clamped to 0 and 255 (R144). The input is in nanovolts. -/
def conversionCode (nanovolts : Int) : Byte := BitVec.ofNat 8 (min 255 (256 * nanovolts.toNat / 2500000000))

/-- The channels in the order a sweep reaches them after the channel last converted (R145). -/
def sweepOrder (last : Option (Fin 8)) : List (Fin 8) :=
  match last with
  | none => List.finRange 8
  | some c => (List.finRange 8).map fun i => c + 1 + i

/-- The channel the next conversion takes, if there is one (R145). -/
def Monitor.nextChannel (m : Monitor) : Option (Fin 8) :=
  match m.mode with
  | .focus c => some c
  | .sweep => (sweepOrder m.lastConv).find? fun c => m.channels[c].enable

/-- Change a channel. -/
def Monitor.onChannel (c : Fin 8) (f : Channel → Channel) (m : Monitor) : Monitor :=
  { m with channels := m.channels.set c.val (f m.channels[c]) c.isLt }

/-- Change a mesh. -/
def Monitor.onMesh (i : Fin 2) (f : Mesh → Mesh) (m : Monitor) : Monitor :=
  { m with meshes := m.meshes.set i.val (f m.meshes[i]) i.isLt }

/-- A code inside a channel's window (R147). -/
def Channel.inside (code : Byte) (c : Channel) : Bool := decide (c.low ≤ code ∧ code ≤ c.high)

/-- A fault of a channel: the count rises to its depth, and the result that takes it there detects (R147). -/
def Channel.fault (high : Bool) (c : Channel) : Channel :=
  { c with
    count := min (c.count + 1) c.depth
    detected := if c.count + 1 = c.depth then some high else c.detected }

/-- The judgement of a result (R147). -/
def Channel.judge (code : Byte) (c : Channel) : Channel :=
  if c.inside code then { c with count := 0 } else c.fault (decide (c.high < code))

/-- Whether a result of channel `c` is judged: its channel is enabled, and channel 0 only on mains (R147). -/
def judged (power : Power) (c : Fin 8) (x : Channel) : Bool := x.enable && (c != 0 || power == .mains)

/-- A result joins the history, which keeps the last four (R146). -/
def historyAfter (h : List (Fin 8 × Byte)) (r : Fin 8 × Byte) : List (Fin 8 × Byte) :=
  (h ++ [r]).drop (h.length + 1 - Limit.history)

/-- A conversion's result is written and judged (R145 to R147). -/
def Monitor.result (power : Power) (c : Fin 8) (code : Byte) (m : Monitor) : Monitor :=
  ({ m with history := historyAfter m.history (c, code), lastConv := some c } : Monitor).onChannel c fun x =>
    if judged power c x then ({ x with last := some code } : Channel).judge code else { x with last := some code }

/-- A conversion, if the mode makes one (R145). -/
def Monitor.convert (power : Power) (nanovolts : Int) (m : Monitor) : Monitor :=
  match m.nextChannel with
  | some c => m.result power c (conversionCode nanovolts)
  | none => m

/-! ## Meshes -/

/-- A bad interval or a miss: the count rises to the depth, and detects on reaching it (R152, R153). -/
def Mesh.fault (m : Mesh) : Mesh :=
  { m with count := min (m.count + 1) m.depth, detected := m.detected || decide (m.count + 1 = m.depth) }

/-- A good interval: from P − T to P + T (R152). -/
def Mesh.good (m : Mesh) : Bool := decide (m.period ≤ m.interval + m.tol ∧ m.interval ≤ m.period + m.tol)

/-- The judgement of the interval a crossing captures (R152). -/
def Mesh.judge (m : Mesh) : Mesh :=
  if m.referenced then (if m.good then { m with count := 0 } else m.fault) else m

/-- A rising crossing at a mesh's return (R152). -/
def Mesh.crossing (m : Mesh) : Mesh :=
  if m.enable then { m.judge with interval := 0, referenced := true } else m

/-- A miss (R153). -/
def Mesh.miss (m : Mesh) : Mesh :=
  if m.enable then { m.fault with interval := 0, referenced := false } else m

/-- The drive phase moves on; a disabled mesh keeps it at 0 (R151). -/
def Mesh.drive (m : Mesh) : Mesh :=
  { m with phase := if m.enable then (if m.phase + 1 < m.period then m.phase + 1 else 0) else 0 }

/-- The drive outputs of a mesh, normal and counter-phase (R151). -/
def Mesh.outputs (m : Mesh) : Bool × Bool :=
  (m.enable && decide (m.dead ≤ m.phase ∧ m.phase < m.period / 2),
   m.enable && decide (m.period / 2 + m.dead ≤ m.phase ∧ m.phase < m.period))

/-- The interval counter at which a mesh is missed (R153). -/
def Mesh.missAt (m : Mesh) : Nat := m.period + m.tol + 1

/-- A mesh clock raises the interval counter of an enabled mesh (R152). -/
def Mesh.count1 (m : Mesh) : Mesh := if m.enable then { m with interval := min (m.interval + 1) m.missAt } else m

/-! ## Conditions and sampling -/

/-- An alarm condition of a channel (R161). -/
def Channel.alarming (c : Channel) : Bool :=
  c.enable && (match c.last with | none => true | some code => !c.inside code)

/-- An alarm condition is present (R161). -/
def Monitor.alarmCondition (m : Monitor) : Bool :=
  m.channels.toList.any Channel.alarming || m.meshes.toList.any (fun x => x.enable && x.count != 0) || m.lid.on

/-- A sample of a switched input; the flag says that the 64th differing sample registers a change (R94, R154). The
registering row itself then sets the position and returns the count to 0. -/
def SampledInput.sample (level : Bool) (x : SampledInput) : SampledInput × Bool :=
  if level = x.on then ({ x with count := 0 }, false)
  else if x.count + 1 < Limit.samples then ({ x with count := x.count + 1 }, false)
  else (x, true)

/-- A registered change of position (R94, R154). -/
def SampledInput.register (on : Bool) (_ : SampledInput) : SampledInput := { on := on, count := 0 }

end Sys2Proof.Machine
end

