-- ==== Sys2Proof/Machine/Readouts.lean ====
section
/-! DEFINITION. The readouts of the supervisor link, byte by byte (R84, R116, R158, R160, R185, R189, R200, R204). -/

namespace Sys2Proof.Machine

/-- The code of a cabinet state (R204). -/
def CabState.code : CabState → Nat
  | .blank => 0
  | .clearing => 1
  | .restore => 2
  | .ready => 3
  | .zeroed => 4

/-- The code of a background operation (R204). -/
def BgOp.code : BgOp → Nat
  | .idle => 0
  | .mapClear => 1
  | .scrub => 2

/-- The code of a window state (R204). -/
def WindowState.code : WindowState → Nat
  | .shut => 0
  | .opened => 1
  | .lapsed => 2

/-- The code of a domain state (R204). -/
def DomState.code : DomState → Nat
  | .vacant => 0
  | .closed => 1
  | .opened => 2
  | .spent => 3

/-- The code of an entry phase (R204). -/
def EntryPhase.code : EntryPhase → Nat
  | .first => 1
  | .half => 2
  | .second => 3

/-- The code of the converter mode: FOCUS in bit 0, its channel in bits 1 to 3 (R204). In SWEEP there is no focus channel,
and the bits that then carry no field are 0. -/
def ConvMode.code : ConvMode → Nat
  | .sweep => 0
  | .focus c => 1 + 2 * c.val

/-- The link's target address (R192). -/
def linkAddress (s : State) : BitVec 7 := 0x4C#7 + s.link.strap.setWidth 7

/-- PAB ÷ 65536 (R204). -/
def pabCode (p : PabIndex) : Nat := pabBase p / 65536

/-- Byte 1 of STATUS (R204). -/
def statusFlags (s : State) : Nat :=
  bit (s.cab.sub == .quiet) + 2 * bit s.seeds.clearPending + 4 * bit (s.cab.power == .battery) + 8 * bit s.cab.scrubOn +
    16 * bit (armed s) + 32 * bit s.mon.record.valid + 64 * bit s.mon.lid.on + 128 * bit s.mon.panel.on

/-- Byte 10 of STATUS (R204). -/
def statusWindows (u : EntryUnit) : Nat :=
  bit u.switchA.on + 2 * bit u.switchB.on + 4 * u.windowA.state.code + 16 * u.windowB.state.code

/-- The data of STATUS: 28 bytes (R200, R204). -/
def statusData (s : State) : List Byte :=
  bytesOf 1 s.cab.cabinet.code ++ bytesOf 1 (statusFlags s) ++ bytesOf 1 s.cab.bg.op.code ++
    bytesOf 3 s.cab.bg.next ++ bytesOf 3 s.cab.bg.completed ++ bytesOf 1 s.mon.mode.code ++
    bytesOf 1 (statusWindows s.entry) ++ bytesOf 2 s.entry.windowA.remaining.toNat ++
    bytesOf 2 s.entry.windowB.remaining.toNat ++ bytesOf 1 ((s.entry.domain.map BitVec.toNat).getD 255) ++
    bytesOf 1 s.entry.list.length ++ bytesOf 2 s.entry.limit.toNat ++ bytesOf 2 s.ev.flags.toNat ++
    bytesOf 2 s.ev.enables.toNat ++ bytesOf 2 (pabCode s.seeds.pab) ++ bytesOf 2 s.run.compare ++
    bytesOf 1 (linkAddress s).toNat

/-- The data of READ-DOMAIN: 7 bytes (R84, R204). -/
def domainData (s : State) (d : DomId) : List Byte :=
  let r := s.doms[domIx d]
  bytesOf 1 (domState s d).code ++ bytesOf 1 r.epoch.toNat ++
    bytesOf 1 (bit (seedPresent s d) + 2 * bit r.staged.isSome) ++ bytesOf 2 r.lease.toNat ++
    bytesOf 2 ((r.staged.map BitVec.toNat).getD 0)

/-- The data of READ-ENTRY: 23 bytes (R116, R204). -/
def entryData (e : EntryRec) : List Byte :=
  bytesOf 1 e.dom.toNat ++ bytesOf 2 e.fpn.toNat ++ bytesOf 2 e.bpn.toNat ++ bytesOf 1 e.phase.code ++
    bytesOf 1 (custCode e.first).toNat ++ bytesOf 8 e.firstSet.toNat ++ bytesOf 8 e.combinedSet.toNat

/-- The data of READ-REFUSAL: 13 bytes, all 0 for an empty record (R185, R204). -/
def refusalData (e : EventUnit) : List Byte :=
  match e.record with
  | none => bytesOf 13 0
  | some r =>
    bytesOf 1 (1 + 2 * bit e.overwritten) ++ bytesOf 1 r.kind.rank ++ bytesOf 1 r.reason.code ++
      bytesOf 1 r.region.code ++ bytesOf 1 r.dom.toNat ++
      bytesOf 1 (bit (r.priv == .kernel) + 2 * bit (r.dir == .write)) ++ bytesOf 4 (frontAddr r.line) ++
      bytesOf 1 r.tag.toNat ++ bytesOf 2 e.count.toNat

/-- The data of READ-TAMPER: 17 bytes; a record that is not valid reads as an empty one (R158, R204). -/
def tamperData (m : Monitor) : List Byte :=
  let r := if m.record.valid then m.record else .reset
  bytesOf 1 (bit r.valid) ++ bytesOf 1 ((r.first.map Cause.num).getD 255) ++
    bytesOf 4 r.time.toNat ++ bytesOf 3 r.causes.toNat ++ bytesOf 1 r.further.toNat ++
    bytesOf 3 m.testSet.toNat ++ bytesOf 4 m.seconds.toNat

/-- The data of READ-EXPIRED: 8 bytes (R189, R204). -/
def expiredData (e : EventUnit) : List Byte := bytesOf 8 e.expired.toNat

/-- The data of READ-RESULTS: 1 + 2n bytes (R160, R204). -/
def resultsData (m : Monitor) : List Byte :=
  bytesOf 1 m.history.length ++ m.history.flatMap fun r => bytesOf 1 r.1.val ++ [r.2]

end Sys2Proof.Machine
end

