-- ==== Sys2Proof/Machine/Link.lean ====
section
/-! DEFINITION. The Supervisor Link: taking a command, the answer slot, and the judgement and effect of each command
(chapter 11, R67 to R69, R77 to R82, R95, R113, R159, R171 to R176). -/

namespace Sys2Proof.Machine

/-! ## Frames and answers -/

/-- What a command's rule gives: an answer with its data, or none while a LOCK waits for its walk, and the state
(R194, R197). -/
abbrev Reply := Option (AnsCode × List Byte) × State

/-- An answer without data. -/
def reply (c : AnsCode) (s : State) : Reply := (some (c, []), s)

/-- ACCEPTED with data. -/
def replyData (data : List Byte) (s : State) : Reply := (some (.accepted, data), s)

/-- Place an answer in the slot, whatever it holds (R195). -/
def putAnswer (r : Reply) : State :=
  r.2.onLink fun l => { l with slot := match r.1 with | some a => .ready a.1 a.2 | none => .waiting }

/-- Whether the link acknowledges a transfer's address: its own, while the main domain works (R192). -/
def addressed (addr : BitVec 7) (s : State) : Bool := live s && addr == linkAddress s

/-- The acknowledge of a transfer's address. -/
def acknowledge (a : Bool) (s : State) : State := s.onLink fun l => { l with acked := a }

/-- A write transfer ends with a command whose code is the row's: a wrong argument count is answered LENGTH, else the
command's rule judges it and its answer takes the slot in the same step (R193 to R195, R197). -/
def takeFrame (f : Frame) (count : Nat) (rule : State → Reply) (s : State) : State :=
  if addressed f.addr s then
    putAnswer (if f.args.length = count then rule (acknowledge true s) else reply .length (acknowledge true s))
  else acknowledge false s

/-- A read transfer of `count` bytes from an answer (R196). -/
def answerBytes (c : AnsCode) (data : List Byte) (count : Nat) : List Byte :=
  (c.byte :: data ++ List.replicate count 0#8).take count

/-- A read transfer (R196). -/
def readAnswer (addr : BitVec 7) (count : Nat) (s : State) : State :=
  if addressed addr s then
    match s.link.slot with
    | .waiting => s.onLink fun l => { l with acked := false, sent := [] }
    | .empty => s.onLink fun l => { l with acked := true, sent := answerBytes .none [] count }
    | .ready c data => s.onLink fun l => { l with
        acked := true, sent := answerBytes c data count, slot := if count = 0 then .ready c data else .empty }
  else s.onLink fun l => { l with acked := false, sent := [] }

/-! ## Arguments -/

/-- The domain an argument byte names, none above 63. -/
def argDomain (b : Byte) : Option DomId := if b.toNat ≤ 63 then some (BitVec.ofNat 6 b.toNat) else none

/-- The FPN a two-byte argument names, none above 16383. -/
def argFpn (w : BitVec 16) : Option Fpn := if w.toNat ≤ 16383 then some (BitVec.ofNat 14 w.toNat) else none

/-- The pair that a domain byte and a two-byte FPN name (R66, R67, R69). -/
def argPair (args : List Byte) : Option (DomId × Fpn) :=
  match argDomain (argByte args 0), argFpn (argWord args 1) with
  | some d, some f => some (d, f)
  | _, _ => none

/-! ## Commissioning and restoring -/

/-- Both custodians' switches are registered ON (R171). -/
def bothOn (s : State) : Bool := s.entry.switchA.on && s.entry.switchB.on

/-- Background progress starts a map clear, the mark is set, and the cabinet is CLEARING (R173). -/
def beginClear (s : State) : State :=
  (s.onSeeds fun x => { x with clearPending := true }).onCab fun c =>
    { c with cabinet := .clearing, bg := c.bg.start .mapClear }

/-- The acceptance of COMMISSION and RECOMMISSION (R172, R161). -/
def commissionCabinet (s : State) : State :=
  beginClear { s with
    seeds := { s.seeds with
      root := some (Config.freshSeed s.seeds.made)
      domains := (Vector.replicate 64 none).set 0 (some (Config.freshSeed (s.seeds.made + 1)))
      made := s.seeds.made + 2 }
    doms := Vector.replicate 64 .reset
    entry := { s.entry with domain := none, list := [] }
    mon := { s.mon with mode := .sweep, testSet := 0#21 } }

/-- COMMISSION (R171). -/
def ruleCommission (s : State) : Reply :=
  if s.cab.cabinet ≠ .blank then reply .state s
  else if bothOn s = false then reply .state s
  else if s.mon.alarmCondition then reply .state s
  else reply .accepted (commissionCabinet s)

/-- RECOMMISSION (R171). -/
def ruleRecommission (s : State) : Reply :=
  if s.cab.cabinet ≠ .zeroed then reply .state s
  else if s.cab.sub = .scrubbing then reply .busy s
  else if s.mon.record.valid then reply .state s
  else if bothOn s = false then reply .state s
  else if s.mon.alarmCondition then reply .state s
  else reply .accepted (commissionCabinet s)

/-- RESUME (R175). -/
def ruleResume (s : State) : Reply :=
  if s.cab.cabinet = .restore then
    reply .accepted ((s.onCab fun c => { c with cabinet := .ready }).onEntry (.request .deferred))
  else reply .state s

/-- CLEAR-MAP (R176). -/
def ruleClearMap (s : State) : Reply :=
  if s.cab.cabinet = .restore then reply .accepted (beginClear (s.onEntry fun u => { u with list := [] }))
  else reply .state s

/-! ## Run commands -/

/-- Cabinet states in which ENROL and ERASE are taken (R77). -/
def readyOrRestore (s : State) : Bool := s.cab.cabinet == .ready || s.cab.cabinet == .restore

/-- The issuer domain a run command names: 1 to 63 (R77 step 1). -/
def argIssuer (args : List Byte) : Option DomId :=
  match argDomain (argByte args 0) with
  | some d => if d = 0#6 then none else some d
  | none => none

/-- ENROL (R77, R78). -/
def ruleEnrol (args : List Byte) (s : State) : Reply :=
  match argIssuer args with
  | none => reply .range s
  | some d =>
    if readyOrRestore s = false then reply .state s
    else if domState s d ≠ .vacant then reply .state s
    else reply .accepted (onDom d (fun r => { r with state := .closed }) (s.onSeeds fun x =>
      { x with domains := x.domains.set (domIx d).val (some (Config.freshSeed x.made)) (domIx d).isLt, made := x.made + 1 }))

/-- OPEN-RUN (R77, R79). -/
def ruleOpenRun (args : List Byte) (s : State) : Reply :=
  match argIssuer args with
  | none => reply .range s
  | some d =>
    if argWord args 1 = 0#16 then reply .range s
    else if s.cab.cabinet ≠ .ready then reply .state s
    else if domState s d ≠ .closed then reply .state s
    else reply .accepted
      (onDom d (fun r => { r with state := .opened, lease := argWord args 1, staged := none, ending := false }) s)

/-- EXTEND-RUN (R77, R80). -/
def ruleExtendRun (args : List Byte) (s : State) : Reply :=
  match argIssuer args with
  | none => reply .range s
  | some d =>
    if argWord args 1 = 0#16 then reply .range s
    else if s.cab.cabinet ≠ .ready then reply .state s
    else if domState s d ≠ .opened then reply .state s
    else reply .accepted (onDom d (fun r => { r with staged := some (argWord args 1) }) s)

/-- CLOSE-RUN (R77, R81). -/
def ruleCloseRun (args : List Byte) (s : State) : Reply :=
  match argIssuer args with
  | none => reply .range s
  | some d =>
    if s.cab.cabinet ≠ .ready then reply .state s
    else if domState s d ≠ .opened then reply .state s
    else reply .accepted (endRun d s)

/-- A domain record after ERASE (R82). -/
def DomRec.erase (r : DomRec) : DomRec :=
  if r.epoch = 255#8 then { r with state := .spent, lease := 0#16, staged := none, ending := false }
  else { state := .vacant, epoch := r.epoch + 1#8, lease := 0#16, staged := none, ending := false }

/-- A slot that still needs its domain's key when the domain is erased: its read has not arrived, or its line is not yet
enciphered (R83). -/
def Slot.needsKey (x : Slot) : Bool :=
  match x.phase with
  | .readWait _ => true
  | .readOut _ _ => true
  | .writeWait _ _ => true
  | _ => false

/-- A slot once domain `d` is erased: a transaction in flight of the domain has lost its key for good, even if the domain
is enrolled again before it needs the key (R83; log entry 15). -/
def Slot.erased (d : DomId) (x : Slot) : Slot :=
  if x.region = some .key ∧ x.txn.dom = d ∧ x.needsKey = true then { x with keyLost := true } else x

/-- The transactions in flight of an erased domain lose their key (R83). -/
def loseKeys (d : DomId) (s : State) : State := s.onFront fun p => { p with slots := p.slots.map (Slot.erased d) }

/-- The acceptance of ERASE (R82, R83, R46). -/
def eraseDomain (d : DomId) (s : State) : State :=
  let destroyed := s.onSeeds fun x => { x with domains := x.domains.set (domIx d).val none (domIx d).isLt }
  keepFills (fun f => f.dom != d) (domainDemap d (loseKeys d (onDom d DomRec.erase destroyed)))

/-- ERASE (R77, R82). -/
def ruleErase (args : List Byte) (s : State) : Reply :=
  match argIssuer args with
  | none => reply .range s
  | some d =>
    if readyOrRestore s = false then reply .state s
    else if domState s d ≠ .closed ∧ domState s d ≠ .opened then reply .state s
    else if s.entry.list.any (fun e => e.dom == d) then reply .busy s
    else reply .accepted (eraseDomain d s)

/-- READ-DOMAIN (R84). -/
def ruleReadDomain (args : List Byte) (s : State) : Reply :=
  match argDomain (argByte args 0) with
  | none => reply .range s
  | some d => replyData (domainData s d) s

/-- CLEAR-EXPIRED (R189). -/
def ruleClearExpired (args : List Byte) (s : State) : Reply :=
  let marks : BitVec 64 := argWord args 6 ++ argWord args 4 ++ argWord args 2 ++ argWord args 0
  reply .accepted (s.onEv fun e => { e with expired := e.expired &&& ~~~marks })

/-! ## Key entry -/

/-- The entry domain SET-ENTRY names: a domain, NONE for 255, or out of range (R95). -/
def argEntryDomain (b : Byte) : Option (Option DomId) :=
  if b = 255#8 then some none else (argDomain b).map some

/-- Whether a value may be the entry domain: NONE, or a domain that is CLOSED or OPEN (R95 step 3). -/
def entryDomainAllowed (s : State) (v : Option DomId) : Bool :=
  match v with
  | none => true
  | some d => domState s d == .closed || domState s d == .opened

/-- SET-ENTRY (R95). -/
def ruleSetEntry (args : List Byte) (s : State) : Reply :=
  match argEntryDomain (argByte args 0) with
  | none => reply .range s
  | some v =>
    if s.cab.cabinet ≠ .ready then reply .state s
    else if entryDomainAllowed s v = false then reply .state s
    else if v = s.entry.domain then reply .accepted s
    else if s.entry.list ≠ [] ∨ s.entry.windowA.state = .opened ∨ s.entry.windowB.state = .opened then reply .busy s
    else reply .accepted (s.onEntry fun u => { u with domain := v })

/-- ABANDON-ENTRY (R113). -/
def ruleAbandonEntry (s : State) : Reply :=
  if s.cab.cabinet = .ready then reply .accepted (s.onEntry (.request .abandon)) else reply .state s

/-- READ-ENTRY (R116). -/
def ruleReadEntry (args : List Byte) (s : State) : Reply :=
  let i := (argByte args 0).toNat
  if 31 < i then reply .range s
  else
    match s.entry.list[i]? with
    | none => reply .absent s
    | some e => replyData (entryData e) s

/-! ## Locks and demaps -/

/-- A lock request is held by a walk (R67, R68). -/
def lockHeld (s : State) : Bool := s.xlat.walks.any fun w => w.lock

/-- All 16 Fixed Buffer entries hold locked pages (R67). -/
def allLocked (t : Translation) : Bool := t.fixed.toList.all fun e => e.held.valid && e.lock

/-- The page a Set Buffer way holds for a pair. -/
def Translation.setHit (d : DomId) (f : Fpn) (t : Translation) : Option Page :=
  let row := t.setAt (setIndex d f)
  if row.way0.holds (Page.isOf d f) then row.way0.page
  else if row.way1.holds (Page.isOf d f) then row.way1.page else none

/-- A page moves from the Set Buffer into the Fixed Buffer, locked and used (R67). -/
def Translation.moveLocked (p : Page) (t : Translation) : Option Translation :=
  (t.insertFixed p true).map fun t => t.onSet (setIndex p.dom p.fpn) (SetRow.demap (Page.isOf p.dom p.fpn))

/-- A lock request joins the pair's walk (R68). -/
def joinLock (d : DomId) (f : Fpn) (s : State) : State :=
  s.onXlat fun t => { t with
    walks := t.walks.map fun w => if w.dom == d && w.fpn == f then { w with lock := true } else w }

/-- A LOCK of a pair in neither buffer: a lock request joins the pair's walk or starts one (R68). It starts one while fewer
than 4 are listed, and may so take the entry that a walk left before the transactions released by it have repeated their
lookups (R58; log entry 22). -/
def requestLock (d : DomId) (f : Fpn) (s : State) : Reply :=
  match s.xlat.walkFor d f with
  | some _ => (none, joinLock d f s)
  | none => if s.xlat.walks.length < Limit.walks then (none, startWalk d f [] true s) else reply .busy s

/-- LOCK of a pair in range (R67). -/
def lockPair (d : DomId) (f : Fpn) (s : State) : Reply :=
  if lockHeld s then reply .busy s
  else if s.cab.cabinet ≠ .ready ∨ domState s d ≠ .opened then reply .state s
  else
    match s.xlat.fixedHit d f with
    | some i =>
      if s.xlat.fixed[i].lock then reply .accepted s
      else reply .accepted (s.onXlat (.onFixed i fun e => { e with lock := true }))
    | none =>
      if allLocked s.xlat then reply .full s
      else
        match s.xlat.setHit d f with
        | some p =>
          match s.xlat.moveLocked p with
          | some t => reply .accepted (s.onXlat fun _ => t)
          | none => reply .full s
        | none => requestLock d f s

/-- LOCK (R67). -/
def ruleLock (args : List Byte) (s : State) : Reply :=
  match argPair args with
  | none => reply .range s
  | some (d, f) => lockPair d f s

/-- UNLOCK (R69). -/
def ruleUnlock (args : List Byte) (s : State) : Reply :=
  match argPair args with
  | none => reply .range s
  | some (d, f) =>
    match s.xlat.fixedHit d f with
    | some i => reply .accepted (s.onXlat (.onFixed i fun e => { e with lock := false }))
    | none => reply .absent s

/-- DEMAP-PAGE (R66). -/
def ruleDemapPage (args : List Byte) (s : State) : Reply :=
  match argPair args with
  | none => reply .range s
  | some (d, f) => reply .accepted (pageDemap d f s)

/-- DEMAP-DOMAIN (R66). -/
def ruleDemapDomain (args : List Byte) (s : State) : Reply :=
  match argDomain (argByte args 0) with
  | none => reply .range s
  | some d => reply .accepted (domainDemap d s)

/-! ## Audit -/

/-- CLEAR-REFUSAL (R185). -/
def ruleClearRefusal (s : State) : Reply :=
  reply .accepted (s.onEv fun e => { e with record := none, overwritten := false, count := 0#16 })

/-- READ-TAMPER (R158). -/
def ruleReadTamper (s : State) : Reply :=
  replyData (tamperData s.mon) (s.onMon fun m => { m with testSet := 0#21 })

/-- The monitor after ACK-TAMPER (R159). -/
def Monitor.acknowledge (m : Monitor) : Monitor :=
  { m with
    record := .reset
    channels := m.channels.map fun c => { c with count := 0 }
    meshes := m.meshes.map fun x => { x with count := 0 } }

/-- ACK-TAMPER (R159). -/
def ruleAckTamper (s : State) : Reply :=
  if s.cab.cabinet = .zeroed then reply .accepted (s.onMon .acknowledge) else reply .state s

/-- CLEAR-EVENTS (R188, R204). -/
def ruleClearEvents (args : List Byte) (s : State) : Reply :=
  reply .accepted (s.onEv fun e => { e with flags := e.flags &&& ~~~((argWord args 0).setWidth 11) })

end Sys2Proof.Machine
end

