-- ==== Sys2Proof/Machine/RunRows.lean ====
section
/-! DEFINITION. The commands of the run clock and of key entry: one meaning for each row (R27, R85, R94 to R115). A row
that reads a lease, a window or an event flag first takes what the last run pulse ended (log entry 9). -/

namespace Sys2Proof.Machine

/-! ## Run pulses -/

/-- A run pulse is produced: the counter returns to 0, and the Domain Table and the Entry Unit count it (R27, R85, R98). -/
def pulse (s : State) : State :=
  if live s then
    { s with
      run := { s.run with counter := 0 }
      doms := s.doms.map DomRec.pulse
      entry := { s.entry with windowA := s.entry.windowA.pulse, windowB := s.entry.windowB.pulse } }
  else s

/-- RUN_PULSE (R27). -/
def execRunPulse (s : State) : Host.Outcome State Fault Refusal := .next (pulse (afterPulse s))

/-- LEASE_EXPIRY (R85). -/
def execLeaseExpiry (d : DomId) (s : State) : Host.Outcome State Fault Refusal := .next (expireLease d s)

/-- WINDOW_LAPSE (R98). -/
def execWindowLapse (x : Custodian) (s : State) : Host.Outcome State Fault Refusal := .next (lapse x s)

/-! ## Custodian switches -/

/-- A switch-on opens its SHUT window when the cabinet is READY and an entry domain is set (R97). -/
def windowOn (s : State) (w : Window) : Window :=
  if live s = true ∧ w.state = .shut ∧ s.cab.cabinet = .ready ∧ s.entry.domain ≠ none then
    { state := .opened, remaining := s.entry.limit, ending := false }
  else w

/-- A registered switch-on (R94, R97). -/
def switchOn (x : Custodian) (s : State) : State :=
  if (s.entry.switch x).on then s
  else s.onEntry fun u => (u.register x true).onWindow x (windowOn s)

/-- REGISTERED_SWITCH_ON (R97). -/
def execRegisteredSwitchOn (x : Custodian) (s : State) : Host.Outcome State Fault Refusal := .next (switchOn x (afterPulse s))

/-- A registered switch-off: its window is SHUT, and an OPEN one requests its finalisation (R94, R99). -/
def switchOff (x : Custodian) (s : State) : State :=
  if (s.entry.switch x).on then
    s.onEntry fun u =>
      let shut := (u.register x false).onWindow x fun _ => .reset
      if (u.window x).state = .opened then shut.request (.finalise x) else shut
  else s

/-- REGISTERED_SWITCH_OFF (R99). -/
def execRegisteredSwitchOff (x : Custodian) (s : State) : Host.Outcome State Fault Refusal := .next (switchOff x (afterPulse s))

/-! ## Entry operations -/

/-- The waiting operation whose turn it is, when none is in progress (R102). -/
def nextOp (s : State) : Option EntryOp :=
  if live s = true ∧ s.entry.work = none then s.entry.waiting.head? else none

/-- The waiting operation is taken. -/
def takeOp (s : State) : State := s.onEntry fun u => { u with waiting := u.waiting.tail }

/-- A component write is taken, judged, and refused or carried out (R103 to R107). -/
def takeComponent (tag : Tag) (bpn : Bpn) (life : Lifecycle) (s : State) : State :=
  match findSlot s tag with
  | none => takeOp s
  | some x =>
    match judgeComponent s.entry x.txn life with
    | .error r => refuse tag .denied r (takeOp s)
    | .ok (c, a) => beginComponent tag x.txn bpn c a (takeOp s)

/-- The component write whose turn it is (R102, R103). -/
def nextComponent (s : State) : State :=
  match nextOp s with
  | some (.component tag bpn life) => takeComponent tag bpn life s
  | _ => s

/-- COMPONENT_WRITE (R103). -/
def execComponentWrite (s : State) : Host.Outcome State Fault Refusal := .next (nextComponent (afterPulse s))

/-- The oldest burst is the combining read that is awaited (R107). -/
def arriveCombine (s : State) : State :=
  match arrivingRead s with
  | some x =>
    match combineAwaiting x.req.id s with
    | some c => if live s = true ∧ x.req.origin = .entry then combineArrives c x s else s
    | none => s
  | none => s

/-- COMBINING_READ_BURST (R107). -/
def execCombiningReadBurst (s : State) : Host.Outcome State Fault Refusal := .next (arriveCombine s)

/-- The finalisation for a custodian whose turn it is (R109). -/
def nextFinalisation (s : State) : State :=
  match nextOp s with
  | some (.finalise x) => beginFin (some x) (takeOp s)
  | _ => s

/-- FINALISATION (R109). -/
def execFinalisation (s : State) : Host.Outcome State Fault Refusal := .next (nextFinalisation (afterPulse s))

/-- Every fill of a page going to LIVE is complete: its LIVE update is offered (R110). -/
def completeLiveFill (s : State) : State :=
  match s.entry.work with
  | some (.finalising x d f (.filling [] []) rest) =>
    match findEntry s d f with
    | some e =>
      if live s then offerPart (finUpdate e .live) (setWork (some (.finalising x d f .live rest)) s) else s
    | none => s
  | _ => s

/-- LIVE_ZERO_FILL_COMPLETE (R110). -/
def execLiveZeroFillComplete (s : State) : Host.Outcome State Fault Refusal := .next (completeLiveFill s)

/-- The deferred finalisation whose turn it is (R115). -/
def nextDeferred (s : State) : State :=
  match nextOp s with
  | some .deferred => beginFin none (takeOp s)
  | _ => s

/-- DEFERRED_FINALISATION (R115). -/
def execDeferredFinalisation (s : State) : Host.Outcome State Fault Refusal := .next (nextDeferred (afterPulse s))

/-- The Entry List is emptied, ENTRY-ABANDONED raised if it held an entry, and a retire update offered for each (R113). -/
def abandonList (s : State) : State :=
  advanceAbandon (s.entry.list.map abandonUpdate)
    (raiseIf (!s.entry.list.isEmpty) .entryAbandoned (s.onEntry fun u => { u with list := [] }))

/-- The abandonment whose turn it is (R113). -/
def nextAbandonment (s : State) : State :=
  match nextOp s with
  | some .abandon => abandonList (takeOp s)
  | _ => s

/-- ABANDONMENT (R113). -/
def execAbandonment (s : State) : Host.Outcome State Fault Refusal := .next (nextAbandonment (afterPulse s))

end Sys2Proof.Machine
end

