-- ==== Sys2Proof/Machine/Clock.lean ====
section
/-! DEFINITION. What arrives from outside without a row of its own: clock edges, with what an edge counts and the part's own
commands that it makes due, and the transfers of the supervisor link. The machine takes one while no command waits, and
puts the commands it makes due into the queue (log entries 6, 7 and 17). A command that turns out not to be due leaves the
state as it stands. -/

namespace Sys2Proof.Machine

/-! ## The back clock -/

/-- The commands of the burst that an edge finds ended: by what awaits it (R36, R60, R107, R136, R137). -/
def burstStep (s : State) (x : Burst) : Instr :=
  if x.req.write then .writeCompletion
  else if (walkAwaiting x.req.id s).isSome then .walkCompletion
  else if (updateAwaiting x.req.id s).isSome then .updateLineReadArrival
  else if (combineAwaiting x.req.id s).isSome then .combiningReadBurst
  else .readBurst

/-- The row that takes a waiting entry operation (R102). -/
def opStep : EntryOp → Instr
  | .component _ _ _ => .componentWrite
  | .finalise _ => .finalisation
  | .deferred => .deferredFinalisation
  | .abandon => .abandonment

/-- The pick that names a request (R34). -/
def pickOf : UpdateRequest → UpdatePick
  | .kernel tag _ => .kernel tag
  | .part _ => .part

/-- Commands that clock `t` makes due once the clock stands at it (R123, R126, R127, R136, R137, R140). -/
def timedSteps (t : Nat) (s : State) : List Instr :=
  let b := s.back
  (match b.startUp with
    | some u => if u.prechargeClock + b.timing.tRP ≤ t then [Instr.startUpEnd] else []
    | none => (List.finRange 2).flatMap fun r => List.replicate b.ranks[r].accrued (Instr.refreshAccrual r)) ++
    ((List.finRange 2).filterMap fun r => if b.endDue r t then some (Instr.refreshEnd r) else none) ++
    (allBanks.filterMap fun p => if b.autoDue p.1 p.2 t then some (Instr.automaticPrecharge p.1 p.2) else none) ++
    (b.bursts.filter fun x => decide (x.finish ≤ t)).map (burstStep s)

/-- Commands that the part takes as soon as their conditions hold. -/
def readySteps (s : State) : List Instr :=
  let tags := s.front.slots.map fun x => x.txn.tag
  [Instr.liveZeroFillComplete, Instr.scrubDone, Instr.clearDone] ++
    List.replicate s.xlat.waiting.length Instr.waitingLookupRepeat ++
    tags.map Instr.followingStart ++ tags.map Instr.mapReadResume ++
    s.maps.updates.map (fun u => Instr.mergeRelease u.line) ++
    s.maps.requests.map (fun r => Instr.updateTaken (pickOf r)) ++
    s.maps.updates.map (fun u => Instr.updateLineWrite u.line) ++
    (s.entry.waiting.head?.map opStep).toList ++
    List.replicate s.back.waiting.length Instr.backQueueEntry ++
    [Instr.fillLineWrite, Instr.backgroundLineOffer] ++
    tags.map Instr.responseDelivery ++ [Instr.heldTransactionAccepted]

/-- Selections for every place of the service list (R133). -/
def selectSteps : List Instr := List.replicate Limit.service Instr.selection

/-- The arbiter and the command path at clock `t` (R125, R133): of the four kinds of command the first that R125 gives
the path is issued, and the others then find the path taken. A column command frees a place in the queue and in the
service list: a maker that waits enters, and the arbiter selects again at the same clock (R131, R133, R135). -/
def pathSteps (t : Nat) (s : State) : List Instr :=
  selectSteps ++ [Instr.activation t, Instr.precharge t, Instr.columnCommand t, Instr.refresh t] ++
    s.maps.updates.map (fun u => Instr.updateLineWrite u.line) ++
    [Instr.backQueueEntry, Instr.fillLineWrite, Instr.backgroundLineOffer] ++ selectSteps

/-- An edge of the back clock. Without power there is none. -/
def backEdge (s : State) : State :=
  if live s then
    let t := s.back.clock + 1
    let s' := s.onBack (.advance t)
    { s' with pending := timedSteps t s' ++ readySteps s ++ pathSteps t s }
  else s

/-! ## The slow oscillator -/

/-- A rising crossing at a mesh's return at this edge. -/
def Inputs.crosses (m : Fin 2) (i : Inputs) : Bool := if m = 0 then i.crossing0 else i.crossing1

/-- What a mesh clock makes due at a mesh (R151 to R153), given its interval counter after the edge. -/
def meshSteps (i : Inputs) (m : Fin 2) (x : Mesh) : List Instr :=
  [Instr.meshDrivePhase m] ++
    (if i.crosses m then [Instr.meshCrossing m, Instr.meshDetection m]
    else if x.enable = true ∧ x.interval = x.missAt then [Instr.meshMiss m, Instr.meshDetection m] else [])

/-- The analog input of a channel at an edge. -/
def Inputs.level (i : Inputs) (c : Option (Fin 8)) : Int :=
  match c with
  | some c => i.analog[c]
  | none => 0

/-- Whether a monitor clock makes a conversion (R145). -/
def conversionDue (s : State) : Bool := s.cab.power == .mains || s.mon.pace == 7

/-- The conversion at a monitor clock, and the detection it may give (R145 to R147). -/
def conversionSteps (i : Inputs) (s : State) : List Instr :=
  if conversionDue s then
    match s.mon.nextChannel with
    | some c => [Instr.conversion (i.level (some c)), Instr.channelDetection c]
    | none => []
  else []

/-- The run pulse at a monitor clock, and the leases and windows it may end (R27, R85, R98). -/
def runSteps (s : State) : List Instr :=
  if live s = true ∧ s.run.counter = s.run.compare then
    [Instr.runPulse] ++ ((List.finRange 64).filterMap fun d =>
      if s.doms[d].state = .opened ∧ s.doms[d].lease.toNat ≤ 1 then some (Instr.leaseExpiry (BitVec.ofNat 6 d.val)) else none) ++
      [Instr.windowLapse .a, Instr.windowLapse .b]
  else []

/-- The registrations that the 64th differing sample makes (R94, R154). -/
def sampleSteps (i : Inputs) (s : State) : List Instr :=
  (if (s.entry.switchA.sample i.custA).2 then
    [if i.custA then Instr.registeredSwitchOn .a else Instr.registeredSwitchOff .a] else []) ++
  (if (s.entry.switchB.sample i.custB).2 then
    [if i.custB then Instr.registeredSwitchOn .b else Instr.registeredSwitchOff .b] else []) ++
  (if (s.mon.lid.sample i.lidOpen).2 then [Instr.lidRegistered i.lidOpen] else []) ++
  (if (s.mon.panel.sample i.panelPressed).2 then [Instr.panelRegistered i.panelPressed] else [])

/-- A monitor clock: the counts it moves (R27, R94, R145, R154, R156). -/
def monitorCount (i : Inputs) (s : State) : State :=
  { s with
    run := if live s = true ∧ s.run.counter ≠ s.run.compare then { s.run with counter := s.run.counter + 1 } else s.run
    entry := { s.entry with
      switchA := (s.entry.switchA.sample i.custA).1, switchB := (s.entry.switchB.sample i.custB).1 }
    mon := { s.mon with
      lid := (s.mon.lid.sample i.lidOpen).1, panel := (s.mon.panel.sample i.panelPressed).1
      secondClocks := min (s.mon.secondClocks + 1) 4095
      pace := if s.cab.power = .mains then s.mon.pace else if s.mon.pace = 7 then 0 else s.mon.pace + 1 } }

/-- The commands a monitor clock makes due. -/
def monitorSteps (i : Inputs) (s : State) : List Instr :=
  runSteps s ++ sampleSteps i s ++ (if s.mon.secondClocks = 4095 then [.monitorSecond] else []) ++ conversionSteps i s

/-- An edge of the mesh clock; every eighth is a monitor clock (00_scope, Time). -/
def meshEdge (i : Inputs) (s : State) : State :=
  let m := s.onMon fun m => { m with meshes := m.meshes.map Mesh.count1, meshClocks := (m.meshClocks + 1) % 8 }
  let meshes := meshSteps i 0 m.mon.meshes[0] ++ meshSteps i 1 m.mon.meshes[1]
  if s.mon.meshClocks = 7 then { monitorCount i m with pending := meshes ++ monitorSteps i s }
  else { m with pending := meshes }

/-! ## The supervisor link -/

/-- A write transfer of the link ends: its first byte names the command and the others are its arguments, and the command
waits its turn. With no byte after the address it is no command; an address that is the link's is acknowledged, and the
answer slot is left as it stands (R193). -/
def takeTransfer (addr : BitVec 7) (bytes : List Byte) (s : State) : State :=
  match transferCommand addr bytes with
  | some c => { s with pending := s.pending ++ [c] }
  | none => acknowledge (addressed addr s) s

/-! ## What arrives -/

/-- What the machine does while no command waits: it takes the next arrival, or idles. -/
def idle (s : State) : State :=
  match s.arrivals with
  | [] => s
  | .back :: rest => backEdge { s with arrivals := rest }
  | .mesh i :: rest => meshEdge i { s with arrivals := rest }
  | .transfer addr bytes :: rest => takeTransfer addr bytes { s with arrivals := rest }

end Sys2Proof.Machine
end

