-- ==== Sys2Proof/Machine/Configure.lean ====
section
/-! DEFINITION. CONFIGURE: its judgement and the fitting of each setting (R5, R28, R96, R120, R124, R148 to R150, R163,
R187, R201, R202, R204). -/

namespace Sys2Proof.Machine

/-- A value clamped into a range. -/
def clamp (low high v : Nat) : Nat := min high (max low v)

/-- Value byte `i` of a CONFIGURE, after the item and index bytes (R204). -/
def valueByte (args : List Byte) (i : Nat) : Byte := argByte args (i + 2)

/-- The two-byte count of items 1 to 5 (R204). -/
def valueCount (args : List Byte) : Nat := (argWord args 2).toNat

/-- A CONFIGURE row: steps 1 to 3 of R201 for its item, and `rule` for the rest, which is given the index. The row is taken
for its own item, and for an item that is none of the ten; a frame that names another row's item is not this command and
has no effect (log entry 26). -/
def configure (f : Frame) (item maxIndex : Nat) (taken : State → Bool) (rule : Nat → State → Reply) (s : State) : State :=
  let named := (argByte f.args 0).toNat
  let index := (argByte f.args 1).toNat
  if f.args.length = 8 ∧ named ≠ item ∧ 1 ≤ named ∧ named ≤ 10 then s
  else takeFrame f 8 (fun s =>
    if named ≠ item then reply .range s
    else if maxIndex < index then reply .range s
    else if taken s = false then reply .state s
    else rule index s) s

/-- Items taken in BLANK and ZEROED (R201). -/
def blankOrZeroed (s : State) : Bool := s.cab.cabinet == .blank || s.cab.cabinet == .zeroed

/-- Items taken in BLANK (R5). -/
def blankOnly (s : State) : Bool := s.cab.cabinet == .blank

/-- Items taken in every state. -/
def everyState (_ : State) : Bool := true

/-- An on or off byte (R204). -/
def argFlag (b : Byte) : Option Bool := if b = 0#8 then some false else if b = 1#8 then some true else none

/-- Item 1: the Seed Store takes the base, and the Region Decoder reloads its copy (R5, R201 step 5, R202). -/
def ruleConfigurePab (args : List Byte) (_ : Nat) (s : State) : Reply :=
  let n := valueCount args
  if n % 0x800 ≠ 0 ∨ 0x7800 < n then reply .range s
  else
    let p : PabIndex := BitVec.ofNat 4 (n / 0x800)
    reply .accepted ((s.onSeeds fun x => { x with pab := p }).onFront fun x => { x with pabCopy := p })

/-- The timing parameters with parameter `i` set to `n`, clamped into its range (R120). -/
def Timing.set (i n : Nat) (t : Timing) : Timing :=
  match i with
  | 0 => { t with tRCD := clamp 2 15 n }
  | 1 => { t with tRP := clamp 2 15 n }
  | 2 => { t with tRAS := clamp 4 40 n }
  | 3 => { t with tRRD := clamp 2 15 n }
  | 4 => { t with tFAW := clamp 8 63 n }
  | 5 => { t with rl := clamp 3 15 n }
  | 6 => { t with tWR := clamp 2 15 n }
  | 7 => { t with tWTR := clamp 2 15 n }
  | 8 => { t with tRTP := clamp 2 15 n }
  | 9 => { t with tRFC := clamp 20 255 n }
  | 10 => { t with tREFI := clamp 1000 16383 n }
  | _ => t

/-- A bank at a change of the parameters: an automatic precharge that has come under the old ones is made at its clock, and
one still to come is judged by the new ones from now on (R120, R123). -/
def BackCtl.retimeBank (r : Fin 2) (i : Fin 8) (b : BackCtl) : Bank :=
  let k := b.bank r i
  if b.autoDue r i b.clock then { k with row := none, lastPre := some (b.autoClock r i), closing := none }
  else { k with closing := k.closing.map fun c => max c b.clock }

/-- The Back Controller with new timing parameters (R120). -/
def BackCtl.retime (timing : Timing) (b : BackCtl) : BackCtl :=
  { b with timing := timing, banks := Vector.ofFn fun j => b.retimeBank (Fin.ofNat 2 (j.val / 8)) (Fin.ofNat 8 j.val) }

/-- Item 2, back timing (R120). -/
def ruleConfigureBackTiming (args : List Byte) (i : Nat) (s : State) : Reply :=
  reply .accepted (s.onBack fun b => b.retime (b.timing.set i (valueCount args)))

/-- Item 3, page policy (R120, R124). -/
def ruleConfigurePagePolicy (args : List Byte) (_ : Nat) (s : State) : Reply :=
  reply .accepted (s.onBack fun b => { b with timing := { b.timing with tIDLE := clamp 0 255 (valueCount args) } })

/-- Item 4, run compare (R28). -/
def ruleConfigureRunCompare (args : List Byte) (_ : Nat) (s : State) : Reply :=
  reply .accepted (s.onRun fun _ => { counter := 0, compare := clamp 1 4095 (valueCount args) })

/-- Item 5, entry limit (R96). -/
def ruleConfigureEntryLimit (args : List Byte) (_ : Nat) (s : State) : Reply :=
  reply .accepted (s.onEntry fun u => { u with limit := if argWord args 2 = 0#16 then 1#16 else argWord args 2 })

/-- A channel with new settings, fitted; its count returns to 0 (R148). -/
def Channel.configure (enable : Bool) (low high depth : Byte) (c : Channel) : Channel :=
  { c with
    enable := enable, low := if high < low then high else low, high := high, depth := clamp 1 15 depth.toNat, count := 0 }

/-- Item 6, channel settings (R148). -/
def ruleConfigureChannel (args : List Byte) (i : Nat) (s : State) : Reply :=
  match argFlag (valueByte args 0) with
  | none => reply .range s
  | some enable =>
    reply .accepted (s.onMon (.onChannel (Fin.ofNat 8 i)
      (.configure enable (valueByte args 1) (valueByte args 2) (valueByte args 3))))

/-- A mesh period, fitted (R150). -/
def fitPeriod (n : Nat) : Nat := clamp 16 1022 n / 2 * 2

/-- A mesh with new settings, fitted; its drive and sense begin afresh (R150). -/
def Mesh.configure (enable : Bool) (period dead tol depth : Nat) (m : Mesh) : Mesh :=
  { m with
    enable := enable, period := fitPeriod period, dead := clamp 1 (fitPeriod period / 4) dead
    tol := clamp 1 63 tol, depth := clamp 1 15 depth, phase := 0, interval := 0, referenced := false, count := 0 }

/-- Item 7, mesh settings (R150). -/
def ruleConfigureMesh (args : List Byte) (i : Nat) (s : State) : Reply :=
  match argFlag (valueByte args 0) with
  | none => reply .range s
  | some enable =>
    reply .accepted (s.onMon (.onMesh (Fin.ofNat 2 i)
      (.configure enable (argWord args 3).toNat (valueByte args 3).toNat (valueByte args 4).toNat (valueByte args 5).toNat)))

/-- The converter with a new mode; a sweep that follows FOCUS c goes on above c (R149). -/
def Monitor.setMode (mode : ConvMode) (m : Monitor) : Monitor :=
  { m with
    mode := mode
    lastConv := match m.mode, mode with
      | .focus c, .sweep => some c
      | _, _ => m.lastConv }

/-- Item 8, converter mode: 0 SWEEP, with index 0 alone, and 1 FOCUS (R149, R201). -/
def ruleConfigureMode (args : List Byte) (i : Nat) (s : State) : Reply :=
  match argFlag (valueByte args 0) with
  | some false => if i ≠ 0 then reply .range s else reply .accepted (s.onMon (.setMode .sweep))
  | some true =>
    if blankOrZeroed s then reply .accepted (s.onMon (.setMode (.focus (Fin.ofNat 8 i)))) else reply .state s
  | none => reply .range s

/-- Item 9, scrub setting: 0 OFF, 1 ON (R163, R201). -/
def ruleConfigureScrub (args : List Byte) (_ : Nat) (s : State) : Reply :=
  match argFlag (valueByte args 0) with
  | none => reply .range s
  | some on => reply .accepted (s.onCab fun c => { c with scrubOn := on })

/-- Item 10, event enables (R187). -/
def ruleConfigureEnables (args : List Byte) (_ : Nat) (s : State) : Reply :=
  reply .accepted (s.onEv fun e => { e with enables := (argWord args 2).setWidth 11 })

end Sys2Proof.Machine
end

