-- ==== Sys2Proof/Machine/LinkRows.lean ====
section
/-! DEFINITION. The commands of the supervisor link: one meaning for each row (chapter 11). A CONFIGURE row is CONFIGURE
with one item (R201). A command that reads a lease, a window, the expired set or an event flag first takes what the last run
pulse ended (log entry 9). -/

namespace Sys2Proof.Machine

/-- ANSWER_READ (R196). -/
def execAnswerRead (addr : BitVec 7) (count : Nat) (s : State) : Host.Outcome State Fault Refusal :=
  .next (readAnswer addr count s)

/-- A write transfer whose code is none of the 29 is answered UNKNOWN (R194). A code of the table belongs to another row,
and the command has no effect. -/
def takeUnknown (code : Byte) (f : Frame) (s : State) : State :=
  if commandCodes.contains code then s
  else takeFrame f f.args.length (reply .unknown) s

/-- UNKNOWN (R194). -/
def execUnknown (code : Byte) (f : Frame) (s : State) : Host.Outcome State Fault Refusal := .next (takeUnknown code f s)

/-- STATUS (R200). -/
def execStatus (f : Frame) (s : State) : Host.Outcome State Fault Refusal :=
  .next (takeFrame f 0 (fun s => replyData (statusData s) s) (afterPulse s))

/-- COMMISSION (R171). -/
def execCommission (f : Frame) (s : State) : Host.Outcome State Fault Refusal :=
  .next (takeFrame f 0 ruleCommission s)

/-- RECOMMISSION (R171). -/
def execRecommission (f : Frame) (s : State) : Host.Outcome State Fault Refusal :=
  .next (takeFrame f 0 ruleRecommission s)

/-- RESUME (R175). -/
def execResume (f : Frame) (s : State) : Host.Outcome State Fault Refusal :=
  .next (takeFrame f 0 ruleResume s)

/-- CLEAR-MAP (R176). -/
def execClearMap (f : Frame) (s : State) : Host.Outcome State Fault Refusal :=
  .next (takeFrame f 0 ruleClearMap s)

/-- ZEROISE (R155). -/
def execZeroise (f : Frame) (s : State) : Host.Outcome State Fault Refusal :=
  .next (takeFrame f 0 (fun s => reply .accepted (detect .command s)) (afterPulse s))

/-- ENROL (R78). -/
def execEnrol (f : Frame) (s : State) : Host.Outcome State Fault Refusal :=
  .next (takeFrame f 1 (ruleEnrol f.args) s)

/-- ERASE (R82). -/
def execErase (f : Frame) (s : State) : Host.Outcome State Fault Refusal :=
  .next (takeFrame f 1 (ruleErase f.args) (afterPulse s))

/-- OPEN-RUN (R79). -/
def execOpenRun (f : Frame) (s : State) : Host.Outcome State Fault Refusal :=
  .next (takeFrame f 3 (ruleOpenRun f.args) (afterPulse s))

/-- EXTEND-RUN (R80). -/
def execExtendRun (f : Frame) (s : State) : Host.Outcome State Fault Refusal :=
  .next (takeFrame f 3 (ruleExtendRun f.args) (afterPulse s))

/-- CLOSE-RUN (R81). -/
def execCloseRun (f : Frame) (s : State) : Host.Outcome State Fault Refusal :=
  .next (takeFrame f 1 (ruleCloseRun f.args) (afterPulse s))

/-- READ-DOMAIN (R84). -/
def execReadDomain (f : Frame) (s : State) : Host.Outcome State Fault Refusal :=
  .next (takeFrame f 1 (ruleReadDomain f.args) (afterPulse s))

/-- READ-EXPIRED (R189). -/
def execReadExpired (f : Frame) (s : State) : Host.Outcome State Fault Refusal :=
  .next (takeFrame f 0 (fun s => replyData (expiredData s.ev) s) (afterPulse s))

/-- CLEAR-EXPIRED (R189). -/
def execClearExpired (f : Frame) (s : State) : Host.Outcome State Fault Refusal :=
  .next (takeFrame f 8 (ruleClearExpired f.args) (afterPulse s))

/-- SET-ENTRY (R95). -/
def execSetEntry (f : Frame) (s : State) : Host.Outcome State Fault Refusal :=
  .next (takeFrame f 1 (ruleSetEntry f.args) (afterPulse s))

/-- ABANDON-ENTRY (R113). -/
def execAbandonEntry (f : Frame) (s : State) : Host.Outcome State Fault Refusal :=
  .next (takeFrame f 0 ruleAbandonEntry (afterPulse s))

/-- READ-ENTRY (R116). -/
def execReadEntry (f : Frame) (s : State) : Host.Outcome State Fault Refusal :=
  .next (takeFrame f 1 (ruleReadEntry f.args) (afterPulse s))

/-- LOCK (R67). -/
def execLock (f : Frame) (s : State) : Host.Outcome State Fault Refusal :=
  .next (takeFrame f 3 (ruleLock f.args) (afterPulse s))

/-- UNLOCK (R69). -/
def execUnlock (f : Frame) (s : State) : Host.Outcome State Fault Refusal :=
  .next (takeFrame f 3 (ruleUnlock f.args) (afterPulse s))

/-- DEMAP-PAGE (R66). -/
def execDemapPage (f : Frame) (s : State) : Host.Outcome State Fault Refusal :=
  .next (takeFrame f 3 (ruleDemapPage f.args) s)

/-- DEMAP-DOMAIN (R66). -/
def execDemapDomain (f : Frame) (s : State) : Host.Outcome State Fault Refusal :=
  .next (takeFrame f 1 (ruleDemapDomain f.args) s)

/-- DEMAP-ALL (R66). -/
def execDemapAll (f : Frame) (s : State) : Host.Outcome State Fault Refusal :=
  .next (takeFrame f 0 (fun s => reply .accepted (allDemap s)) s)

/-- READ-REFUSAL (R185). -/
def execReadRefusal (f : Frame) (s : State) : Host.Outcome State Fault Refusal :=
  .next (takeFrame f 0 (fun s => replyData (refusalData s.ev) s) s)

/-- CLEAR-REFUSAL (R185). -/
def execClearRefusal (f : Frame) (s : State) : Host.Outcome State Fault Refusal :=
  .next (takeFrame f 0 ruleClearRefusal s)

/-- READ-TAMPER (R158). -/
def execReadTamper (f : Frame) (s : State) : Host.Outcome State Fault Refusal :=
  .next (takeFrame f 0 ruleReadTamper s)

/-- ACK-TAMPER (R159). -/
def execAckTamper (f : Frame) (s : State) : Host.Outcome State Fault Refusal :=
  .next (takeFrame f 0 ruleAckTamper s)

/-- READ-RESULTS (R160). -/
def execReadResults (f : Frame) (s : State) : Host.Outcome State Fault Refusal :=
  .next (takeFrame f 0 (fun s => replyData (resultsData s.mon) s) s)

/-- CLEAR-EVENTS (R188). -/
def execClearEvents (f : Frame) (s : State) : Host.Outcome State Fault Refusal :=
  .next (takeFrame f 2 (ruleClearEvents f.args) (afterPulse s))

/-- CONFIGURE item 1, PAB (R5). -/
def execConfigurePab (f : Frame) (s : State) : Host.Outcome State Fault Refusal :=
  .next (configure f 1 0 blankOnly (ruleConfigurePab f.args) s)

/-- CONFIGURE item 2, back timing (R120). -/
def execConfigureBackTiming (f : Frame) (s : State) : Host.Outcome State Fault Refusal :=
  .next (configure f 2 10 blankOrZeroed (ruleConfigureBackTiming f.args) s)

/-- CONFIGURE item 3, page policy (R124). -/
def execConfigurePagePolicy (f : Frame) (s : State) : Host.Outcome State Fault Refusal :=
  .next (configure f 3 0 blankOrZeroed (ruleConfigurePagePolicy f.args) s)

/-- CONFIGURE item 4, run compare (R28). -/
def execConfigureRunCompare (f : Frame) (s : State) : Host.Outcome State Fault Refusal :=
  .next (configure f 4 0 everyState (ruleConfigureRunCompare f.args) s)

/-- CONFIGURE item 5, entry limit (R96). -/
def execConfigureEntryLimit (f : Frame) (s : State) : Host.Outcome State Fault Refusal :=
  .next (configure f 5 0 everyState (ruleConfigureEntryLimit f.args) s)

/-- CONFIGURE item 6, channel settings (R148). -/
def execConfigureChannelSettings (f : Frame) (s : State) : Host.Outcome State Fault Refusal :=
  .next (configure f 6 7 blankOrZeroed (ruleConfigureChannel f.args) s)

/-- CONFIGURE item 7, mesh settings (R150). -/
def execConfigureMeshSettings (f : Frame) (s : State) : Host.Outcome State Fault Refusal :=
  .next (configure f 7 1 blankOrZeroed (ruleConfigureMesh f.args) s)

/-- CONFIGURE item 8, converter mode (R149). -/
def execConfigureConverterMode (f : Frame) (s : State) : Host.Outcome State Fault Refusal :=
  .next (configure f 8 7 everyState (ruleConfigureMode f.args) s)

/-- CONFIGURE item 9, scrub setting (R163). -/
def execConfigureScrubSetting (f : Frame) (s : State) : Host.Outcome State Fault Refusal :=
  .next (configure f 9 0 everyState (ruleConfigureScrub f.args) s)

/-- CONFIGURE item 10, event enables (R187). -/
def execConfigureEventEnables (f : Frame) (s : State) : Host.Outcome State Fault Refusal :=
  .next (configure f 10 0 everyState (ruleConfigureEnables f.args) s)

end Sys2Proof.Machine
end

