-- ==== Sys2Proof/Machine/MonitorRows.lean ====
section
/-! DEFINITION. The commands of the Tamper Monitor: one meaning for each row (chapter 8). The monitor works on battery as
on mains. -/

namespace Sys2Proof.Machine

/-- A conversion, and its judgement (R144 to R147). -/
def convertNext (nanovolts : Int) (s : State) : State := s.onMon (.convert s.cab.power nanovolts)

/-- CONVERSION (R146). -/
def execConversion (nanovolts : Int) (s : State) : Host.Outcome State Fault Refusal := .next (convertNext nanovolts s)

/-- The cause of a channel's detection (R143). -/
def channelCause (c : Fin 8) (high : Bool) : Cause := if high then .chHigh c else .chLow c

/-- A channel whose count has reached its depth is detected (R147). -/
def detectChannel (c : Fin 8) (s : State) : State :=
  match s.mon.channels[c].detected with
  | some high => detect (channelCause c high) (s.onMon (.onChannel c fun x => { x with detected := none }))
  | none => s

/-- CHANNEL_DETECTION (R147). -/
def execChannelDetection (c : Fin 8) (s : State) : Host.Outcome State Fault Refusal := .next (detectChannel c (afterPulse s))

/-- A rising crossing at a mesh's return (R152). -/
def crossMesh (m : Fin 2) (s : State) : State := s.onMon (.onMesh m .crossing)

/-- MESH_CROSSING (R152). -/
def execMeshCrossing (m : Fin 2) (s : State) : Host.Outcome State Fault Refusal := .next (crossMesh m s)

/-- A miss of a mesh (R153). -/
def missMesh (m : Fin 2) (s : State) : State := s.onMon (.onMesh m .miss)

/-- MESH_MISS (R153). -/
def execMeshMiss (m : Fin 2) (s : State) : Host.Outcome State Fault Refusal := .next (missMesh m s)

/-- A mesh whose count has reached its depth is detected (R152, R153). -/
def detectMesh (m : Fin 2) (s : State) : State :=
  if s.mon.meshes[m].detected then detect (.mesh m) (s.onMon (.onMesh m fun x => { x with detected := false })) else s

/-- MESH_DETECTION (R152). -/
def execMeshDetection (m : Fin 2) (s : State) : Host.Outcome State Fault Refusal := .next (detectMesh m (afterPulse s))

/-- LID registers a position; a change from CLOSED to OPEN is a detection (R154). -/
def registerLid (isOpen : Bool) (s : State) : State :=
  let placed := s.onMon fun m => { m with lid := m.lid.register isOpen }
  if isOpen = true ∧ s.mon.lid.on = false then detect .lid placed else placed

/-- LID_REGISTERED (R154). -/
def execLidRegistered (isOpen : Bool) (s : State) : Host.Outcome State Fault Refusal := .next (registerLid isOpen (afterPulse s))

/-- PANEL registers a position; a change from RELEASED to PRESSED is a detection (R154). -/
def registerPanel (pressed : Bool) (s : State) : State :=
  let placed := s.onMon fun m => { m with panel := m.panel.register pressed }
  if pressed = true ∧ s.mon.panel.on = false then detect .panel placed else placed

/-- PANEL_REGISTERED (R154). -/
def execPanelRegistered (pressed : Bool) (s : State) : Host.Outcome State Fault Refusal := .next (registerPanel pressed (afterPulse s))

/-- The seconds counter rises by 1, and stops at its maximum (R156). -/
def countSecond (s : State) : State :=
  s.onMon fun m => { m with
    seconds := if m.seconds = BitVec.allOnes 32 then m.seconds else m.seconds + 1#32, secondClocks := 0 }

/-- MONITOR_SECOND (R156). -/
def execMonitorSecond (s : State) : Host.Outcome State Fault Refusal := .next (countSecond s)

/-- A mesh's drive phase moves on (R151). -/
def driveMesh (m : Fin 2) (s : State) : State := s.onMon (.onMesh m .drive)

/-- MESH_DRIVE_PHASE (R151). -/
def execMeshDrivePhase (m : Fin 2) (s : State) : Host.Outcome State Fault Refusal := .next (driveMesh m s)

end Sys2Proof.Machine
end

