-- ==== Sys2Proof/Machine/PowerRows.lean ====
section
/-! DEFINITION. The commands of power and reset: one meaning for each row (R164, R177 to R180). -/

namespace Sys2Proof.Machine

/-- MAINS_LOSS (R177): PGOOD falls while the power state is MAINS. -/
def execMainsLoss (s : State) : Host.Outcome State Fault Refusal :=
  .next (if s.cab.power = .mains then losePower s else s)

/-- MAINS_RETURN (R178): PGOOD rises while the power state is BATTERY. -/
def execMainsReturn (strap : BitVec 2) (s : State) : Host.Outcome State Fault Refusal :=
  .next (if s.cab.power = .battery then returnPower strap s else s)

/-- RST_ASSERTED (R179): on battery it has no effect but the level of its line (R164). -/
def execRstAsserted (s : State) : Host.Outcome State Fault Refusal :=
  .next (if s.cab.power = .mains ∧ s.cab.rst = false then assertReset s else setRst true s)

/-- RST_END (R179): on battery it has no effect but the level of its line (R164). -/
def execRstEnd (strap : BitVec 2) (s : State) : Host.Outcome State Fault Refusal :=
  .next (if s.cab.power = .mains ∧ s.cab.rst = true then endReset strap s else setRst false s)

/-- FIRST_BATTERY_CONNECTION (R180). -/
def execFirstBatteryConnection (pgood : Bool) (strap : BitVec 2) (s : State) : Host.Outcome State Fault Refusal :=
  .next (connectBattery pgood strap s)

end Sys2Proof.Machine
end

