-- ==== Sys2Proof/Machine/Dispatch.lean ====
section
/-! DEFINITION. The dispatch: one arm for each command. -/

namespace Sys2Proof.Machine

def exec (i : Instr) (s : State) : Host.Outcome State Fault Refusal :=
  match i with
  | .frontTransaction t => Sys2Proof.Machine.execFrontTransaction t s
  | .heldTransactionAccepted => Sys2Proof.Machine.execHeldTransactionAccepted s
  | .followingStart tag => Sys2Proof.Machine.execFollowingStart tag s
  | .responseDelivery tag => Sys2Proof.Machine.execResponseDelivery tag s
  | .backQueueEntry => Sys2Proof.Machine.execBackQueueEntry s
  | .walkCompletion => Sys2Proof.Machine.execWalkCompletion s
  | .waitingLookupRepeat => Sys2Proof.Machine.execWaitingLookupRepeat s
  | .mapReadResume tag => Sys2Proof.Machine.execMapReadResume tag s
  | .updateTaken pick => Sys2Proof.Machine.execUpdateTaken pick s
  | .updateLineReadArrival => Sys2Proof.Machine.execUpdateLineReadArrival s
  | .updateLineWrite k => Sys2Proof.Machine.execUpdateLineWrite k s
  | .mergeRelease k => Sys2Proof.Machine.execMergeRelease k s
  | .fillLineWrite => Sys2Proof.Machine.execFillLineWrite s
  | .runPulse => Sys2Proof.Machine.execRunPulse s
  | .leaseExpiry d => Sys2Proof.Machine.execLeaseExpiry d s
  | .windowLapse x => Sys2Proof.Machine.execWindowLapse x s
  | .registeredSwitchOn x => Sys2Proof.Machine.execRegisteredSwitchOn x s
  | .registeredSwitchOff x => Sys2Proof.Machine.execRegisteredSwitchOff x s
  | .componentWrite => Sys2Proof.Machine.execComponentWrite s
  | .combiningReadBurst => Sys2Proof.Machine.execCombiningReadBurst s
  | .finalisation => Sys2Proof.Machine.execFinalisation s
  | .liveZeroFillComplete => Sys2Proof.Machine.execLiveZeroFillComplete s
  | .deferredFinalisation => Sys2Proof.Machine.execDeferredFinalisation s
  | .abandonment => Sys2Proof.Machine.execAbandonment s
  | .selection => Sys2Proof.Machine.execSelection s
  | .activation t => Sys2Proof.Machine.execActivation t s
  | .precharge t => Sys2Proof.Machine.execPrecharge t s
  | .automaticPrecharge rank bank => Sys2Proof.Machine.execAutomaticPrecharge rank bank s
  | .columnCommand t => Sys2Proof.Machine.execColumnCommand t s
  | .readBurst => Sys2Proof.Machine.execReadBurst s
  | .writeCompletion => Sys2Proof.Machine.execWriteCompletion s
  | .refreshAccrual rank => Sys2Proof.Machine.execRefreshAccrual rank s
  | .refresh t => Sys2Proof.Machine.execRefresh t s
  | .refreshEnd rank => Sys2Proof.Machine.execRefreshEnd rank s
  | .startUpEnd => Sys2Proof.Machine.execStartUpEnd s
  | .conversion nanovolts => Sys2Proof.Machine.execConversion nanovolts s
  | .channelDetection c => Sys2Proof.Machine.execChannelDetection c s
  | .meshCrossing m => Sys2Proof.Machine.execMeshCrossing m s
  | .meshMiss m => Sys2Proof.Machine.execMeshMiss m s
  | .meshDetection m => Sys2Proof.Machine.execMeshDetection m s
  | .lidRegistered isOpen => Sys2Proof.Machine.execLidRegistered isOpen s
  | .panelRegistered pressed => Sys2Proof.Machine.execPanelRegistered pressed s
  | .monitorSecond => Sys2Proof.Machine.execMonitorSecond s
  | .backgroundLineOffer => Sys2Proof.Machine.execBackgroundLineOffer s
  | .scrubDone => Sys2Proof.Machine.execScrubDone s
  | .clearDone => Sys2Proof.Machine.execClearDone s
  | .mainsLoss => Sys2Proof.Machine.execMainsLoss s
  | .mainsReturn strap => Sys2Proof.Machine.execMainsReturn strap s
  | .rstAsserted => Sys2Proof.Machine.execRstAsserted s
  | .rstEnd strap => Sys2Proof.Machine.execRstEnd strap s
  | .firstBatteryConnection pgood strap => Sys2Proof.Machine.execFirstBatteryConnection pgood strap s
  | .answerRead addr count => Sys2Proof.Machine.execAnswerRead addr count s
  | .unknown code f => Sys2Proof.Machine.execUnknown code f s
  | .status f => Sys2Proof.Machine.execStatus f s
  | .commission f => Sys2Proof.Machine.execCommission f s
  | .recommission f => Sys2Proof.Machine.execRecommission f s
  | .resume f => Sys2Proof.Machine.execResume f s
  | .clearMap f => Sys2Proof.Machine.execClearMap f s
  | .zeroise f => Sys2Proof.Machine.execZeroise f s
  | .enrol f => Sys2Proof.Machine.execEnrol f s
  | .erase f => Sys2Proof.Machine.execErase f s
  | .openRun f => Sys2Proof.Machine.execOpenRun f s
  | .extendRun f => Sys2Proof.Machine.execExtendRun f s
  | .closeRun f => Sys2Proof.Machine.execCloseRun f s
  | .readDomain f => Sys2Proof.Machine.execReadDomain f s
  | .readExpired f => Sys2Proof.Machine.execReadExpired f s
  | .clearExpired f => Sys2Proof.Machine.execClearExpired f s
  | .setEntry f => Sys2Proof.Machine.execSetEntry f s
  | .abandonEntry f => Sys2Proof.Machine.execAbandonEntry f s
  | .readEntry f => Sys2Proof.Machine.execReadEntry f s
  | .lock f => Sys2Proof.Machine.execLock f s
  | .unlock f => Sys2Proof.Machine.execUnlock f s
  | .demapPage f => Sys2Proof.Machine.execDemapPage f s
  | .demapDomain f => Sys2Proof.Machine.execDemapDomain f s
  | .demapAll f => Sys2Proof.Machine.execDemapAll f s
  | .readRefusal f => Sys2Proof.Machine.execReadRefusal f s
  | .clearRefusal f => Sys2Proof.Machine.execClearRefusal f s
  | .readTamper f => Sys2Proof.Machine.execReadTamper f s
  | .ackTamper f => Sys2Proof.Machine.execAckTamper f s
  | .readResults f => Sys2Proof.Machine.execReadResults f s
  | .clearEvents f => Sys2Proof.Machine.execClearEvents f s
  | .configurePab f => Sys2Proof.Machine.execConfigurePab f s
  | .configureBackTiming f => Sys2Proof.Machine.execConfigureBackTiming f s
  | .configurePagePolicy f => Sys2Proof.Machine.execConfigurePagePolicy f s
  | .configureRunCompare f => Sys2Proof.Machine.execConfigureRunCompare f s
  | .configureEntryLimit f => Sys2Proof.Machine.execConfigureEntryLimit f s
  | .configureChannelSettings f => Sys2Proof.Machine.execConfigureChannelSettings f s
  | .configureMeshSettings f => Sys2Proof.Machine.execConfigureMeshSettings f s
  | .configureConverterMode f => Sys2Proof.Machine.execConfigureConverterMode f s
  | .configureScrubSetting f => Sys2Proof.Machine.execConfigureScrubSetting f s
  | .configureEventEnables f => Sys2Proof.Machine.execConfigureEventEnables f s
  | .meshDrivePhase m => Sys2Proof.Machine.execMeshDrivePhase m s

end Sys2Proof.Machine
end

