-- ==== Sys2Proof/WellFormed.lean ====
section
/-! DEFINITION. Which terms of `Instr` stand for a command the part can be given. The widths of the operands are in their
types; what is left are the codes of the link. -/

namespace Sys2Proof

/-- The CONFIGURE item of a row (R201). -/
def configureItem : Instr → Option Nat
  | .configurePab _ => some 1
  | .configureBackTiming _ => some 2
  | .configurePagePolicy _ => some 3
  | .configureRunCompare _ => some 4
  | .configureEntryLimit _ => some 5
  | .configureChannelSettings _ => some 6
  | .configureMeshSettings _ => some 7
  | .configureConverterMode _ => some 8
  | .configureScrubSetting _ => some 9
  | .configureEventEnables _ => some 10
  | _ => none

/-- The frame of a CONFIGURE row. -/
def configureFrame : Instr → Option Frame
  | .configurePab f => some f
  | .configureBackTiming f => some f
  | .configurePagePolicy f => some f
  | .configureRunCompare f => some f
  | .configureEntryLimit f => some f
  | .configureChannelSettings f => some f
  | .configureMeshSettings f => some f
  | .configureConverterMode f => some f
  | .configureScrubSetting f => some f
  | .configureEventEnables f => some f
  | _ => none

/-- A CONFIGURE row's whole argument names its item, or an item that is none of the ten (R201 step 1). -/
def itemMatches (item : Nat) (f : Frame) : Bool :=
  let named := (Machine.argByte f.args 0).toNat
  f.args.length != 8 || named == item || named == 0 || decide (10 < named)

/-- Well-formed commands: UNKNOWN carries a code that is none of the 29 (R194), and a CONFIGURE row the item it stands for
(R201). -/
def WellFormed (i : Instr) : Bool :=
  match i with
  | .unknown code _ => !(Machine.commandCodes.contains code)
  | _ =>
    match configureItem i, configureFrame i with
    | some item, some f => itemMatches item f
    | _, _ => true

end Sys2Proof
end

