-- ==== Sys2Proof/Safety.lean ====
section
/-! DEFINITION. The words in which statements about the machine are made: what it means to be sent a command, the laws of
the manual that every step keeps, and the states that a refusal or an answer leaves. -/

namespace Sys2Proof.Machine

/-! ## Steps -/

/-- A step from `s` answers the next state `t`. -/
def StepsTo (s t : State) : Prop := step s = .next t

/-- A state that can be reached from `s`. -/
inductive Reaches (s : State) : State → Prop
  | refl : Reaches s s
  | tail {t u : State} : Reaches s t → StepsTo t u → Reaches s u

/-- Commands carried out one after the other lead from `s` to `u`. -/
def Runs : List Instr → State → State → Prop
  | [], s, u => u = s
  | c :: rest, s, u => ∃ t, exec c s = .next t ∧ Runs rest t u

/-! ## Run pulses -/

/-- No lease and no window that ended at the last run pulse has still to be taken (R85, R98; log entry 9). -/
def PulseTaken (s : State) : Prop :=
  live s = true → (∀ d : Fin 64, s.doms[d].state = .opened → s.doms[d].ending = false) ∧
    ∀ x : Custodian, (s.entry.window x).state = .opened → (s.entry.window x).ending = false

/-- The rows that take what a run pulse ended: every domain's, lowest number first, and both windows'. -/
def pulseRows : List Instr :=
  (List.finRange 64).map (fun d => Instr.leaseExpiry (BitVec.ofNat 6 d.val)) ++ [Instr.windowLapse .a, Instr.windowLapse .b]

/-- The rows that read or move what the end of a lease or a window moves, so that the end comes before them (log
entry 9). -/
def awaitsPulse : Instr → Bool
  | .frontTransaction _ => true
  | .heldTransactionAccepted => true
  | .followingStart _ => true
  | .responseDelivery _ => true
  | .walkCompletion => true
  | .waitingLookupRepeat => true
  | .readBurst => true
  | .componentWrite => true
  | .finalisation => true
  | .deferredFinalisation => true
  | .abandonment => true
  | .registeredSwitchOn _ => true
  | .registeredSwitchOff _ => true
  | .runPulse => true
  | .channelDetection _ => true
  | .meshDetection _ => true
  | .lidRegistered _ => true
  | .panelRegistered _ => true
  | .zeroise _ => true
  | .status _ => true
  | .openRun _ => true
  | .extendRun _ => true
  | .closeRun _ => true
  | .erase _ => true
  | .readDomain _ => true
  | .readExpired _ => true
  | .clearExpired _ => true
  | .clearEvents _ => true
  | .setEntry _ => true
  | .abandonEntry _ => true
  | .readEntry _ => true
  | .lock _ => true
  | .unlock _ => true
  | _ => false

/-! ## Laws -/

/-- The clear-pending mark is set exactly while the cabinet is CLEARING (R163); the root seed is present exactly in
CLEARING, RESTORE and READY, and domain 0's seed with it (R73, R74). A map clear runs in CLEARING alone, a scrub in ZEROED
SCRUBBING alone, and neither without power (R163, R164, R169, R173). -/
def CabinetLaw (s : State) : Prop :=
  (s.seeds.clearPending = true ↔ s.cab.cabinet = .clearing) ∧
    (s.seeds.root.isSome = true ↔ s.cab.cabinet = .clearing ∨ s.cab.cabinet = .restore ∨ s.cab.cabinet = .ready) ∧
    s.seeds.domains[(0 : Fin 64)].isSome = s.seeds.root.isSome ∧
    (s.cab.bg.op = .mapClear → s.cab.cabinet = .clearing) ∧
    (s.cab.bg.op = .scrub → s.cab.cabinet = .zeroed ∧ s.cab.sub = .scrubbing) ∧
    (live s = false → s.cab.bg.op = .idle)

/-- What the state of an issuer domain fixes of its record (R72), that one is OPEN in READY on mains alone (R79, R85, R92),
and domain 0's record: epoch 0, no lease and no staged extension, its state not stored (R72, R73). -/
def DomainLaw (s : State) : Prop :=
  (∀ d : Fin 64, d ≠ 0 →
    (s.seeds.domains[d].isSome = true ↔ s.doms[d].state = .closed ∨ s.doms[d].state = .opened) ∧
    (s.doms[d].state = .opened → s.doms[d].lease ≠ 0#16 ∧ s.doms[d].staged ≠ some 0#16) ∧
    (s.doms[d].state ≠ .opened → s.doms[d].lease = 0#16 ∧ s.doms[d].staged = none) ∧
    (s.doms[d].state = .opened → live s = true ∧ s.cab.cabinet = .ready)) ∧
  s.doms[(0 : Fin 64)] = { state := .vacant, epoch := 0#8, lease := 0#16, staged := none, ending := false }

/-- No more transactions than slots, each with a tag of its own (R2, R3). -/
def SlotLaw (s : State) : Prop :=
  s.front.slots.length ≤ 16 ∧ (s.front.slots.map fun x => x.txn.tag).Nodup

/-- Every FOLLOWING transaction has an older outstanding one to its front line (R2, R8, R14). -/
def FollowingLaw (s : State) : Prop :=
  ∀ before x after, s.front.slots = before ++ x :: after → x.phase = .following → ∃ y ∈ before, y.txn.line = x.txn.line

/-- The Back Queue holds at most 24 requests (R129), each under a name of its own that was given before the next one, and
the service list at most 4 (R133). -/
def QueueLaw (s : State) : Prop :=
  s.back.queue.length ≤ 24 ∧ s.back.service.length ≤ 4 ∧ (s.back.queue.map fun q => q.id).Nodup ∧
    ∀ q ∈ s.back.queue, q.id < s.back.nextId

/-- The Update List holds at most 8 entries, never two for one map line (R33). -/
def UpdateLaw (s : State) : Prop := s.maps.updates.length ≤ 8 ∧ (s.maps.updates.map fun u => u.line).Nodup

/-- Every line that waits for fill room has its entry. -/
def RoomLaw (s : State) : Prop := ∀ k ∈ s.maps.roomOrder, ∃ v ∈ s.maps.updates, v.line = k

/-- What waits for the Update List's sake has its entry there (R34, R36, R131): a line waits for fill room once, and its entry
is in WRITING without room; a maker waits to enter the Back Queue once, and where it is an update's line read, its entry is
in READING with the read still to enter. -/
def MapLaw (s : State) : Prop :=
  RoomLaw s ∧ s.maps.roomOrder.Nodup ∧
    (∀ v ∈ s.maps.updates, v.line ∈ s.maps.roomOrder → v.state = .writing false) ∧ s.back.waiting.Nodup ∧
    ∀ k, .updateRead k ∈ s.back.waiting → ∃ v ∈ s.maps.updates, v.line = k ∧ v.state = .reading none

/-- The fills listed, with the places that WRITING entries hold for theirs, are at most 48 (R36, R44). -/
def FillLaw (s : State) : Prop := s.maps.fills.length + s.maps.reserved ≤ 48

/-- The Walk List holds at most 4 walks, never two for one pair (R57). -/
def WalkLaw (s : State) : Prop := s.xlat.walks.length ≤ 4 ∧ (s.xlat.walks.map fun w => (w.dom, w.fpn)).Nodup

/-- The Entry List holds at most 32 entries, never two for one page, all of the entry domain, each with its combined-line
set within its first-line set (R101); so it will stay once the combining write in progress has entered. -/
def EntryLaw (s : State) : Prop :=
  s.entry.list.length ≤ 32 ∧ (s.entry.list.map fun e => (e.dom, e.fpn)).Nodup ∧
    (∀ e ∈ s.entry.list, s.entry.domain = some e.dom ∧ e.combinedSet &&& ~~~e.firstSet = 0#64) ∧
    ∀ c, s.entry.work = some (.component c) → c.combines = true →
      ∀ e, findEntry s c.dom c.fpn = some e → e.firstSet.getLsbD c.line.toNat = true

/-- The pages that the two buffers hold (R50). -/
def buffered (t : Translation) : List Page :=
  t.fixed.toList.filterMap FixedEntry.page ++ t.sets.toList.flatMap fun r => r.way0.page.toList ++ r.way1.page.toList

/-- The laws of the buffers: a pair is held at most once in the two together, and nowhere while its walk is in flight; every
page held is of an OPEN domain (R51); a Set Buffer page is in the set that R23 gives it and of a DATA class (R50, R53). No
page is held while the main domain does not work. -/
def BufferLaw (s : State) : Prop :=
  ((buffered s.xlat).map fun p => (p.dom, p.fpn)).Nodup ∧
    (∀ p ∈ buffered s.xlat, live s = true ∧ domState s p.dom = .opened ∧
      ∀ w ∈ s.xlat.walks, (w.dom, w.fpn) ≠ (p.dom, p.fpn)) ∧
    ∀ (i : BitVec 8) (p : Page), (s.xlat.setAt i).way0.page = some p ∨ (s.xlat.setAt i).way1.page = some p →
      setIndex p.dom p.fpn = i ∧ p.cls ≠ .key

/-! ## The front port -/

/-- The port can take a transaction that is presented: power, nothing held, a FREE slot, and a tag not in use (R3). -/
def Presentable (t : Txn) (s : State) : Prop :=
  live s = true ∧ s.front.held = none ∧ s.front.slots.length < 16 ∧ ∀ x ∈ s.front.slots, x.txn.tag ≠ t.tag

/-- No outstanding transaction is to a front line. -/
def LineFree (l : FrontLine) (s : State) : Prop := ∀ x ∈ s.front.slots, x.txn.line ≠ l

/-- A slot that has just been taken (R2). -/
def newSlot (t : Txn) : Slot := { txn := t, region := none, phase := .following, keyLost := false }

/-- A command at which transaction `t` starts (R8): it is presented and accepted, accepted from the hold, or FOLLOWING and
now the oldest to its line. `s₀` is the state with its slot taken, the hold emptied, and no more. -/
def StartsAs (c : Instr) (t : Txn) (s s₀ : State) : Prop :=
  (c = .frontTransaction t ∧ Presentable t s ∧ LineFree t.line s ∧
    s₀ = { s with front := { s.front with slots := s.front.slots ++ [newSlot t] } }) ∨
  (c = .heldTransactionAccepted ∧ s.front.held = some t ∧
    Presentable t { s with front := { s.front with held := none } } ∧ LineFree t.line s ∧
    s₀ = { s with front := { s.front with held := none, slots := s.front.slots ++ [newSlot t] } }) ∨
  (c = .followingStart t.tag ∧ live s = true ∧ s₀ = s ∧
    ∃ x, findSlot s t.tag = some x ∧ x.txn = t ∧ x.phase = .following ∧ x.keyLost = false ∧ oldestOnLine s x = true)

/-- The state with the slot of a tag in a region and a phase. -/
def State.moveSlot (tag : Tag) (r : Region) (ph : Phase) (s : State) : State :=
  { s with front := { s.front with
    slots := s.front.slots.map fun y => if y.txn.tag = tag then { y with region := some r, phase := ph } else y } }

/-- The report of a transaction's refusal (R182). -/
def txnReport (t : Txn) (r : Region) (k : Kind) (why : Reason) : Report :=
  { kind := k, reason := why, region := r, dom := t.dom, priv := t.priv, dir := t.dir, line := t.line, tag := t.tag }

/-- The state with a transaction refused: its slot is RESPONDING with the kind's status and zeros, and the refusal is
reported (R12, R182, R183). -/
def State.refused (t : Txn) (r : Region) (k : Kind) (why : Reason) (s : State) : State :=
  { s.moveSlot t.tag r (.responding k.status zeroLine) with ev := s.ev.take (txnReport t r k why) }

/-- The Back Queue has room for a maker's request (R131): it holds fewer than 24 requests, and for a background one 12 or
fewer. -/
def Room (w : Waiter) (s : State) : Prop :=
  s.back.queue.length < 24 ∧ (w = .background → s.back.queue.length ≤ 12)

/-- The Back Queue with one more request at its end (R129). -/
def BackCtl.push (write : Bool) (l : BackLine) (o : Origin) (beat : Beat) (data : Line) (masks : Marks) (b : BackCtl) :
    BackCtl :=
  { b with queue := b.queue ++ [newRequest b.nextId write l o beat data masks], nextId := b.nextId + 1 }

/-- The Back Controller with a maker waiting to enter (R131). -/
def BackCtl.await (w : Waiter) (b : BackCtl) : BackCtl :=
  { b with waiting := if w ∈ b.waiting then b.waiting else b.waiting ++ [w] }

/-- The Back Controller once a waiting maker has entered. -/
def BackCtl.admitted (w : Waiter) (b : BackCtl) : BackCtl := { b with waiting := b.waiting.erase w }

/-- The oldest burst is a read of this origin. -/
def HeadRead (x : Burst) (o : Origin) (s : State) : Prop :=
  s.back.bursts.head? = some x ∧ x.req.write = false ∧ x.req.origin = o

/-- Of the rank records of `u`, only the refresh timers may differ from those of `s`, with their returns to 0 that have
still to be taken: they count the clocks that pass, once START-UP has ended (R126). -/
def TimersOnly (s u : State) : Prop :=
  ∀ r : Fin 2,
    u.back.ranks[r] = { s.back.ranks[r] with timer := u.back.ranks[r].timer, accrued := u.back.ranks[r].accrued } ∧
    (s.back.startUp.isSome = true → u.back.ranks[r] = s.back.ranks[r]) ∧
    (s.back.startUp = none → s.back.ranks[r].timer < s.back.timing.tREFI →
      u.back.ranks[r].timer < s.back.timing.tREFI ∧
      u.back.ranks[r].accrued * s.back.timing.tREFI + u.back.ranks[r].timer =
        s.back.ranks[r].accrued * s.back.timing.tREFI + s.back.ranks[r].timer + (u.back.clock - s.back.clock))

/-- The oldest burst has left the data path at its end clock (log entry 49), and nothing else has changed but the timers. -/
def BurstTaken (x : Burst) (s u : State) : Prop :=
  u = { s with back := { s.back with
    bursts := s.back.bursts.tail, clock := max s.back.clock x.finish, ranks := u.back.ranks } } ∧ TimersOnly s u

/-! ## Refusal reports -/

/-- What a refusal report `r` makes of the Event Unit `e` (R183, R184, R186): an empty record takes its fields; a record held
is marked overwritten, and gives way to a report of a higher rank alone. The count rises by 1 up to 65535, REFUSAL is set, and
every other flag, the enables and the expired set stay. -/
def RefusalTaken (r : Report) (e e' : EventUnit) : Prop :=
  (e.record = none → e'.record = some r ∧ e'.overwritten = false) ∧
  (∀ o, e.record = some o → e'.overwritten = true ∧
    (o.kind.rank < r.kind.rank → e'.record = some r) ∧ (r.kind.rank ≤ o.kind.rank → e'.record = some o)) ∧
  e'.count.toNat = min 65535 (e.count.toNat + 1) ∧
  (∀ i, i < 11 → e'.flags.getLsbD i = (decide (i = 4) || e.flags.getLsbD i)) ∧
  e'.enables = e.enables ∧ e'.expired = e.expired

/-- The UNREADY report of a transaction that a zeroisation cuts off, of the region decoded for it, or of its line's while
none has been (R167, R182). -/
def unreadyReport (x : Slot) : Report :=
  txnReport x.txn (x.region.getD (regionOf x.txn.line)) .unready .noReason

/-! ## The translation buffers -/

/-- A buffer entry without its page, if `hit` names that; its fields are kept (R50, R63). -/
def Held.without (hit : Page → Bool) (h : Held) : Held :=
  if h.valid = true ∧ hit h.fields = true then { h with valid := false } else h

/-- Neither buffer of `u` holds a page that `hit` names, and all else in them is as in `s`: an emptied Fixed Buffer entry
loses its lock and used mark, and recency marks stay (R63, R64). -/
def Demapped (hit : Page → Bool) (s u : State) : Prop :=
  (∀ i : Fin 16, u.xlat.fixed[i] =
    if s.xlat.fixed[i].held.valid = true ∧ hit s.xlat.fixed[i].held.fields = true then
      { held := { s.xlat.fixed[i].held with valid := false }, lock := false, used := false } else s.xlat.fixed[i]) ∧
  (∀ i : Fin 256, u.xlat.sets[i] = { s.xlat.sets[i] with
    way0 := s.xlat.sets[i].way0.without hit, way1 := s.xlat.sets[i].way1.without hit })

/-- LOCK-LOST's mark where a demap of the pages `hit` names removes a locked entry, no mark otherwise (R63). -/
def LockLostMark (hit : Page → Bool) (s : State) : BitVec 11 :=
  if (List.finRange 16).any (fun i =>
      s.xlat.fixed[i].lock && s.xlat.fixed[i].held.valid && hit s.xlat.fixed[i].held.fields) then
    Flag.lockLost.mark else 0#11

/-- A lookup finds page `p` for a pair, and leaves the buffers `t'`: the Fixed Buffer entry that holds it with its used mark
set, or the way of the pair's set that holds it named by the recency mark (R52). -/
def Finds (d : DomId) (f : Fpn) (t : Translation) (p : Page) (t' : Translation) : Prop :=
  (∃ i : Fin 16, t.fixedHit d f = some i ∧ p = t.fixed[i].held.fields ∧
    t' = { t with fixed := t.fixed.set i { t.fixed[i] with used := true } }) ∨
  (t.fixedHit d f = none ∧ ∃ way1 : Bool, t' = t.onSet (setIndex d f) (fun r => { r with recentOne := way1 }) ∧
    (way1 = false → (t.setAt (setIndex d f)).way0.holds (Page.isOf d f) = true ∧
      p = (t.setAt (setIndex d f)).way0.fields) ∧
    (way1 = true → (t.setAt (setIndex d f)).way0.holds (Page.isOf d f) = false ∧
      (t.setAt (setIndex d f)).way1.holds (Page.isOf d f) = true ∧ p = (t.setAt (setIndex d f)).way1.fields))

/-- Page `p` is inserted into its set (R54): into way 0 if that holds no page, else into way 1 if that holds none, else
over the way that the recency mark does not name; the mark then names the way written. -/
def SetRow.with (p : Page) (r : SetRow) : SetRow :=
  let h : Held := { valid := true, fields := p }
  if r.way0.valid = false then { r with way0 := h, recentOne := false }
  else if r.way1.valid = false then { r with way1 := h, recentOne := true }
  else if r.recentOne = true then { r with way0 := h, recentOne := false } else { r with way1 := h, recentOne := true }

/-- Entry `i` is the victim of a Fixed Buffer insertion and becomes `e` (R55): the lowest that holds no page; else the lowest
with lock 0 and used 0; else, the used marks of lock 0 cleared, the lowest with lock 0. The others stay but for that. -/
def TakesVictim (i : Fin 16) (e : FixedEntry) (t t' : Translation) : Prop :=
  t'.fixed[i] = e ∧
  ((t.fixed[i].held.valid = false ∧ (∀ j, j < i → t.fixed[j].held.valid = true) ∧ ∀ j, j ≠ i → t'.fixed[j] = t.fixed[j]) ∨
   ((∀ j : Fin 16, t.fixed[j].held.valid = true) ∧ t.fixed[i].lock = false ∧
    ((t.fixed[i].used = false ∧ (∀ j, j < i → t.fixed[j].lock = true ∨ t.fixed[j].used = true) ∧
        ∀ j, j ≠ i → t'.fixed[j] = t.fixed[j]) ∨
     ((∀ j : Fin 16, t.fixed[j].lock = true ∨ t.fixed[j].used = true) ∧ (∀ j, j < i → t.fixed[j].lock = true) ∧
        ∀ j, j ≠ i → t'.fixed[j] = { t.fixed[j] with used := t.fixed[j].lock && t.fixed[j].used }))))

/-- All 16 Fixed Buffer entries hold locked pages (R55, R67). -/
def AllLocked (t : Translation) : Prop := ∀ i : Fin 16, t.fixed[i].held.valid = true ∧ t.fixed[i].lock = true

/-- Neither buffer holds a pair (R52). -/
def Misses (d : DomId) (f : Fpn) (t : Translation) : Prop := t.fixedHit d f = none ∧ t.setHit d f = none

/-- A walk, stale if its descriptor lies in map line `k` (R35, R48). -/
def Walk.staleOn (k : MapLine) (w : Walk) : Walk := if mapLineOf w.dom w.fpn = k then { w with stale := true } else w

/-! ## Serving a transaction -/

/-- The raw watch (R48): a RAW WINDOW write into map line `k` makes the walks on it stale and removes its eight pairs from
the buffers, LOCK-LOST for a locked one; any other write leaves buffers, walks and events as they were. -/
def Watched (k : Option MapLine) (s u : State) : Prop :=
  match k with
  | none => u.xlat = s.xlat ∧ u.ev = s.ev
  | some k =>
    u.xlat = { s.xlat with
      walks := s.xlat.walks.map (Walk.staleOn k), fixed := u.xlat.fixed, sets := u.xlat.sets } ∧
    Demapped (fun p => mapLineOf p.dom p.fpn == k) s u ∧
    u.ev = { s.ev with flags := s.ev.flags ||| LockLostMark (fun p => mapLineOf p.dom p.fpn == k) s }

/-- A front write's line `d` enters the Back Queue and is answered DONE (R15, R48, R89): a PLAIN one with its disabled bytes
masked, a KEY WINDOW one enciphered under its domain's line key, a RAW WINDOW one as it stands and watched. -/
def LineEnters (t : Txn) (r : Region) (l : BackLine) (d : Line) (s u : State) : Prop :=
  ∀ stored : Line, (r ≠ .key → stored = d) → (r = .key → ∃ k, lineKey s t.dom = some k ∧ stored = encipher k l d) →
    u = { s.moveSlot t.tag r (.responding .done zeroLine) with
      back := s.back.push true l .front 0#3 stored (if r = .plain then ~~~t.enables else 0#64)
      xlat := u.xlat
      ev := u.ev } ∧
    Watched (if r = .raw then rawMapLine t.line else none) s u

/-- A PLAIN, RAW WINDOW or KEY WINDOW transaction is served at its back line (R15, R16, R25, R89, R131): a read by one line
read from its starting beat; a write that enables no byte by the answer DONE alone; a full write, and a PLAIN one, by its
line write; any other by a line read from beat 0, whose merge is written when it has come. What cannot enter waits. -/
def Serves (t : Txn) (r : Region) (l : BackLine) (s u : State) : Prop :=
  (t.dir = .read ∨ t.enables ≠ 0#64 ∧ t.enables ≠ allMarks ∧ r ≠ .plain →
    u = if mayEnter (.front t.tag) s = true then
      { s.moveSlot t.tag r (.readOut l s.back.nextId) with
        back := s.back.push false l .front (if t.dir = .read then t.beat else 0#3) zeroLine 0#64 }
    else { s.moveSlot t.tag r (.readWait l) with back := s.back.await (.front t.tag) }) ∧
  (t.dir = .write → t.enables = 0#64 → u = s.moveSlot t.tag r (.responding .done zeroLine)) ∧
  (t.dir = .write → t.enables ≠ 0#64 → t.enables = allMarks ∨ r = .plain →
    if mayEnter (.front t.tag) s = true then LineEnters t r l t.data s u
    else u = { s.moveSlot t.tag r (.writeWait l t.data) with back := s.back.await (.front t.tag) })

/-- What the class check gives a transaction (R88). -/
inductive ClassOutcome where
  | served
  | refused (k : Kind) (why : Reason)
  | handed
  deriving DecidableEq, Repr

/-- The class check of a transaction by a usable descriptor's page, in the state its domain is in (R88). -/
def classOutcome (st : DomState) (t : Txn) (p : Page) : ClassOutcome :=
  if p.kernelOnly = true ∧ t.priv = .app then .refused .denied .privilege
  else if p.cls = .dataRo ∧ t.dir = .write then .refused .denied .classRule
  else if p.cls = .dataRw ∧ t.dir = .write ∧ st ≠ .opened then .refused .closed .noReason
  else if p.cls = .key ∧ t.dir = .read ∧ p.life ≠ .live then .refused .denied .lifecycle
  else if p.cls = .key ∧ t.dir = .write then .handed
  else .served

/-- A KEY WINDOW transaction goes on with a page (R88, R89): it is served at its key page line, refused, or handed to the
Entry Unit as a component write. -/
def GoesOn (t : Txn) (p : Page) (s u : State) : Prop :=
  match classOutcome (domState s t.dom) t p with
  | .served => Serves t .key (keyBackLine s.seeds.pab p.bpn (keyPageIndex t.line)) s u
  | .refused k why => u = s.refused t .key k why
  | .handed => u = { s.moveSlot t.tag .key .entryWait with
      entry := { s.entry with waiting := s.entry.waiting ++ [.component t.tag p.bpn p.life] } }

/-- The waiters of a walk take its result one after the other (R58, R60, R88, R90): each is refused CLOSED where the re-check
refuses it, ABSENT without a usable descriptor, and goes on with the page else. Requests of theirs that cannot enter begin to
wait together, and wait in that order (R131; log entry 48). -/
def WaitersServed (page : Option Page) : List Tag → State → State → Prop
  | [], s, u => u = s
  | tag :: rest, s, u => ∃ m, WaitersServed page rest m u ∧ (findSlot s tag = none → m = s) ∧
      ∀ y, findSlot s tag = some y →
        (admits (domState s y.txn.dom) y.txn.dir = false → m = s.refused y.txn .key .closed .noReason) ∧
        (admits (domState s y.txn.dom) y.txn.dir = true →
          (page = none → m = s.refused y.txn .key .absent .noReason) ∧ ∀ p, page = some p → GoesOn y.txn p s m)

/-- A walk for a pair starts (R35, R57, R59): it is stale while the Update List holds its line, and its line read from beat 0
enters, or waits to. -/
def State.walkStarted (d : DomId) (f : Fpn) (waiters : List Tag) (lock : Bool) (s : State) : State :=
  let walk (req : Option Nat) : Walk :=
    { dom := d, fpn := f, stale := s.maps.updates.any fun v => v.line == mapLineOf d f, waiters := waiters, lock := lock
      req := req }
  if mayEnter (.walk d f) s = true then
    { s with
      xlat := { s.xlat with walks := s.xlat.walks ++ [walk (some s.back.nextId)] }
      back := s.back.push false (mapBackLine s.seeds.pab (mapLineOf d f)) .walk 0#3 zeroLine 0#64 }
  else { s with xlat := { s.xlat with walks := s.xlat.walks ++ [walk none] }, back := s.back.await (.walk d f) }

/-- The walks with a waiter more on the one for a pair (R58). -/
def joinedWalks (d : DomId) (f : Fpn) (tag : Tag) (walks : List Walk) : List Walk :=
  walks.map fun w => if w.dom = d ∧ w.fpn = f then { w with waiters := w.waiters ++ [tag] } else w

/-! ## Key entry -/

/-- The part update of one page (R42): the lifecycles it expects, the lifecycle it sets, and a first custodian if it sets
one. -/
def OneChange (d : DomId) (f : Fpn) (bpn : Bpn) (expect : List Lifecycle) (life : Lifecycle) (cust : Option Custodian) :
    PartUpdate :=
  { line := mapLineOf d f
    changes := [{ dom := d, fpn := f, bpn := bpn, expect := expect, life := life, cust := cust }] }

/-- The Entry List without the entries of some pages (R101). -/
def listWithout (pages : List (DomId × Fpn)) (list : List EntryRec) : List EntryRec :=
  list.filter fun e => !pages.contains (e.dom, e.fpn)

/-- The Entry Unit's request for the component write in progress enters the Back Queue (R105 to R107): its combining read,
from beat 0; or its line, enciphered under the domain's line key, which joins its set, the write answered DONE and the
operation at its end. Without a key the write is refused CLOSED, and the entry that a first component write has added, which
holds no line yet, goes with it (R12, R75, R83; log entry 31). -/
def EntryEnters (c : CompOp) (s u : State) : Prop :=
  let l := keyBackLine s.seeds.pab c.bpn c.line
  match c.stage with
  | .reading _ => u = { s with
      entry := { s.entry with work := some (.component { c with stage := .reading (some s.back.nextId) }) }
      back := s.back.push false l .entry 0#3 zeroLine 0#64 }
  | .writing d =>
    ∀ y, findSlot s c.tag = some y →
      (lineKey s c.dom = none → u = { s.refused y.txn .key .closed .noReason with
        entry := { s.entry with
          work := none
          list := if c.combines then s.entry.list
            else s.entry.list.filter fun e => ¬(e.dom = c.dom ∧ e.fpn = c.fpn ∧ e.firstSet = 0#64) } }) ∧
      ∀ k, lineKey s c.dom = some k → u = { s.moveSlot c.tag .key (.responding .done zeroLine) with
        entry := { s.entry with
          work := none
          list := s.entry.list.map fun e => if e.dom = c.dom ∧ e.fpn = c.fpn then
            (if c.combines then { e with combinedSet := e.combinedSet ||| (1#64 <<< c.line.toNat) }
             else { e with firstSet := e.firstSet ||| (1#64 <<< c.line.toNat) }) else e }
        back := s.back.push true l .entry 0#3 (encipher k l d) 0#64 }
  | _ => True

/-- The Entry Unit offers a request for the component write in progress: it enters, or waits (R131). -/
def EntryOffers (c : CompOp) (s u : State) : Prop :=
  let at' : State := { s with entry := { s.entry with work := some (.component c) } }
  if mayEnter .entry s = true then EntryEnters c at' u else u = { at' with back := s.back.await .entry }

/-- The component write in progress is refused DENIED (LIFECYCLE) and ends (R105, R107, R108). -/
def Dropped (c : CompOp) (s u : State) : Prop :=
  ∀ y, findSlot s c.tag = some y → u = { s.refused y.txn .key .denied .lifecycle with
    entry := { s.entry with work := none }, back := s.back.admitted .entry }

/-- A finalisation for `x`, or a deferred one when there is none, affects an entry (R109, R115). One in HALF is affected by
the deferred one alone (log entry 36). -/
def FinAffects (x : Option Custodian) (e : EntryRec) : Prop :=
  match x, e.phase with
  | some c, .first => e.first = c
  | some _, .half => False
  | some c, .second => e.first ≠ c
  | none, _ => True

/-- The turn of an affected entry (R109 to R111, R115): one in FIRST goes to HALF; one in HALF keeps it; a complete one in
SECOND whose first component has all 64 lines is offered its LIVE update, one with lines left waits for its zero fills,
which enter one by one (log entry 20); an incomplete one is offered its RETIRED update. -/
def FinTurn (x : Option Custodian) (e : EntryRec) (rest : List (DomId × Fpn)) (s u : State) : Prop :=
  let offers (st : FinStage) (from' to' : Lifecycle) (s : State) : State := { s with
    entry := { s.entry with work := some (.finalising x e.dom e.fpn st rest) }
    maps := { s.maps with requests := s.maps.requests ++ [.part (OneChange e.dom e.fpn e.bpn [from'] to' none)] } }
  match e.phase with
  | .first => u = offers .half .first .half { s with entry := { s.entry with list := s.entry.list.map fun r =>
      if r.dom = e.dom ∧ r.fpn = e.fpn then { r with phase := .half } else r } }
  | .half => u = offers .keepHalf .half .half s
  | .second =>
    (e.combinedSet ≠ e.firstSet → u = offers .retire .second .retired s) ∧
    (e.combinedSet = e.firstSet → e.firstSet = allMarks → u = offers .live .second .live s) ∧
    (e.combinedSet = e.firstSet → e.firstSet ≠ allMarks → ∃ lines : List PageLine,
      lines.Pairwise (fun a b => a.toNat < b.toNat) ∧ (∀ l : PageLine, l ∈ lines ↔ e.firstSet.getLsbD l.toNat = false) ∧
      u = { s with
        entry := { s.entry with work := some (.finalising x e.dom e.fpn (.filling lines []) rest) }
        back := s.back.await .liveFill })

/-- A finalisation goes on over pages (R109, R112, R115): the first that is still listed and affected has its turn; with
none left the operation ends and WINDOW-CLOSED is raised. -/
def FinNext (x : Option Custodian) (pages : List (DomId × Fpn)) (s u : State) : Prop :=
  ((∀ p ∈ pages, ∀ e, findEntry s p.1 p.2 = some e → ¬FinAffects x e) → u = { s with
    entry := { s.entry with work := none }, ev := { s.ev with flags := s.ev.flags ||| Flag.windowClosed.mark } }) ∧
  ∀ before p rest e, pages = before ++ p :: rest →
    (∀ q ∈ before, ∀ r, findEntry s q.1 q.2 = some r → ¬FinAffects x r) → findEntry s p.1 p.2 = some e → FinAffects x e →
    FinTurn x e rest s u

/-- An abandonment goes on (R113): its next update is offered, or it ends. -/
def AbandonNext (rest : List PartUpdate) (s u : State) : Prop :=
  match rest with
  | [] => u = { s with entry := { s.entry with work := none } }
  | p :: rest => u = { s with
      entry := { s.entry with work := some (.abandoning rest) }
      maps := { s.maps with requests := s.maps.requests ++ [.part p] } }

/-- The Map Unit reports a part update complete, and the operation in progress goes on (R43, R105, R107, R109 to R111, R113):
a first component write offers its line, a first combining write its read; one whose entry has gone is refused; a
finalised page that is RETIRED or LIVE leaves the list, with ENTRY-ABANDONED for the first, and the next page follows. -/
def Reported (s u : State) : Prop :=
  match s.entry.work with
  | none => u = s
  | some (.component c) =>
    (findEntry s c.dom c.fpn = none → Dropped c s u) ∧
    ∀ e y, findEntry s c.dom c.fpn = some e → findSlot s c.tag = some y →
      (c.stage = .firstUpdate → EntryOffers { c with stage := .writing y.txn.data } s u) ∧
      (c.stage = .combineUpdate → EntryOffers { c with stage := .reading none } s u)
  | some (.finalising x d f st rest) =>
    let left : State := { s with entry := { s.entry with list := listWithout [(d, f)] s.entry.list } }
    (st = .retire → FinNext x rest { left with ev := { s.ev with flags := s.ev.flags ||| Flag.entryAbandoned.mark } } u) ∧
    (st = .live → FinNext x rest left u) ∧ (st = .half ∨ st = .keepHalf → FinNext x rest s u)
  | some (.abandoning rest) => AbandonNext rest s u

/-- The state with the entries of failed pages gone from the Entry List, and ENTRY-ABANDONED raised if one was listed
(R42). -/
def PagesFailed (pages : List (DomId × Fpn)) (s : State) : State := { s with
  entry := { s.entry with list := listWithout pages s.entry.list }
  ev := { s.ev with flags := s.ev.flags |||
    (if (s.entry.list.any fun e => pages.contains (e.dom, e.fpn)) then Flag.entryAbandoned.mark else 0#11) } }

/-- The Map Unit reports a part update failed for some pages (R42): their entries go, with ENTRY-ABANDONED if one was listed,
a component write in progress is refused, and any other operation goes on. -/
def Failed (pages : List (DomId × Fpn)) (s u : State) : Prop :=
  let left := PagesFailed pages s
  match s.entry.work with
  | none => u = left
  | some (.component c) => Dropped c left u
  | some (.finalising x _ _ _ rest) => FinNext x rest left u
  | some (.abandoning rest) => AbandonNext rest left u

/-- The kernel has retired pages (R36, R38, R114): the entries of them all go without an event; then a component write in
progress for one, past its part update, is refused, and a LIVE zero fill of one is left for the next page (R108, R110; log
entry 28). -/
def Retired (pages : List (DomId × Fpn)) (s u : State) : Prop :=
  let left : State := { s with entry := { s.entry with list := listWithout pages s.entry.list } }
  match s.entry.work with
  | some (.component c) =>
    if (c.dom, c.fpn) ∈ pages ∧ c.stage ≠ .firstUpdate ∧ c.stage ≠ .combineUpdate then Dropped c left u else u = left
  | some (.finalising x d f (.filling _ _) rest) =>
    if (d, f) ∈ pages then FinNext x rest { left with back := s.back.admitted .liveFill } u else u = left
  | _ => u = left

/-- One window is OPEN, and its custodian is `x` (R103 step 2). -/
def SoleOpen (x : Custodian) (u : EntryUnit) : Prop :=
  (u.window x).state = .opened ∧ (u.window (otherCustodian x)).state ≠ .opened

/-- A component write of a page in a lifecycle is refused for this reason, by the first step that fails (R103, R104). -/
def ComponentRefusal (u : EntryUnit) (t : Txn) (life : Lifecycle) (r : Reason) : Prop :=
  (u.domain ≠ some t.dom ∧ r = .domain) ∨
  (u.domain = some t.dom ∧
    ((u.windowA.state ≠ .opened ∧ u.windowB.state ≠ .opened ∧ r = .noWindow) ∨
     (u.windowA.state = .opened ∧ u.windowB.state = .opened ∧ r = .ambiguous) ∨
     ∃ x, SoleOpen x u ∧
      ((t.enables ≠ allMarks ∧ r = .partialWrite) ∨
       (t.enables = allMarks ∧
        match u.list.find? fun e => e.dom == t.dom && e.fpn == keyFpn t.line with
        | none => (life ≠ .empty ∧ r = .lifecycle) ∨ (life = .empty ∧ 32 ≤ u.list.length ∧ r = .entryFull)
        | some e =>
          match e.phase with
          | .first => x ≠ e.first ∧ r = .custodian
          | .half => (x = e.first ∧ r = .custodian) ∨
              (x ≠ e.first ∧ e.firstSet.getLsbD (keyPageIndex t.line).toNat = false ∧ r = .line)
          | .second => (x = e.first ∧ r = .custodian) ∨
              (x ≠ e.first ∧ (e.firstSet.getLsbD (keyPageIndex t.line).toNat = false ∨
                e.combinedSet.getLsbD (keyPageIndex t.line).toNat = true) ∧ r = .line)))))

/-! ## The Map Unit -/

/-- Fill room is given on (R36): from the front of the order in which WRITING entries wait for it, as far as it goes; each
then waits to send its line write, in that order (log entry 48). -/
def RoomGiven (s u : State) : Prop :=
  ∃ given, s.maps.roomOrder = given ++ u.maps.roomOrder ∧
    u = { s with
      maps := { s.maps with
        updates := s.maps.updates.map fun v => if v.line ∈ given then { v with state := .writing true } else v
        roomOrder := u.maps.roomOrder }
      back := given.foldl (fun b k => b.await (.updateWrite k)) s.back } ∧
    ∀ k v, u.maps.roomOrder.head? = some k → findUpdate u k = some v →
      48 < u.maps.fills.length + u.maps.reserved + v.fills.length

/-- The entry of line `k` enters WRITING with its result (R36): with no fill to start it waits to send its line write, else
it is the last to wait for room, which is given as far as it goes. -/
def EntersWriting (k : MapLine) (stored result : Line) (fills : List Fill) (held : Bool) (removes : List (DomId × Fpn))
    (s u : State) : Prop :=
  let formed (room : Bool) : MapUnit := { s.maps with updates := s.maps.updates.map fun v => if v.line = k then { v with
    state := .writing room, stored := stored, result := result, fills := fills, held := held, removes := removes } else v }
  (fills = [] → u = { s with maps := formed true, back := s.back.await (.updateWrite k) }) ∧
  (fills ≠ [] → RoomGiven { s with maps := { formed false with roomOrder := s.maps.roomOrder ++ [k] } } u)

/-- The Map Unit without the Update List entry of line `k` (R34): the requests that wait for that line have waited together as
it freed (log entry 47). -/
def MapUnit.left (k : MapLine) (m : MapUnit) : MapUnit :=
  { m with
    updates := m.updates.filter fun v => v.line != k
    together := m.requests.filter fun r => r.line = k ∨ r ∈ m.together }

/-- What R42 asks of a stored descriptor for a change: usable under the current epoch of its domain, of class KEY, with the
recorded BPN, and in one of the expected lifecycles. -/
def ChangePasses (c : PartChange) (epoch : Epoch) (d : Desc) : Prop :=
  d.valid = 1#1 ∧ d.epoch = epoch ∧ d.cls = 2#2 ∧ d.bpn = c.bpn ∧ ∃ life ∈ c.expect, d.life = life.code

/-- A descriptor with a change applied (R42): it takes the change's lifecycle, and its first custodian where the change sets
one (A is 0, B is 1); every other field, owner bits included, is kept. -/
def Desc.changed (c : PartChange) (d : Desc) : Desc :=
  { d with
    life := c.life.code
    cust := match c.cust with
      | none => d.cust
      | some .a => 0#1
      | some .b => 1#1 }

/-- A buffer entry with its lifecycle written in place, if it holds the pair (R43). -/
def Held.lived (d : DomId) (f : Fpn) (life : Lifecycle) (h : Held) : Held :=
  if h.valid = true ∧ h.fields.dom = d ∧ h.fields.fpn = f then { h with fields := { h.fields with life := life } } else h

/-! ## The kernel's merge -/

/-- A descriptor is usable under its domain's epoch (R31): valid 1, a class code other than 3, a lifecycle code that names
one where the class is KEY (code 2), and that epoch. -/
def Desc.IsUsable (x : Desc) (epoch : Epoch) : Prop :=
  x.valid = 1#1 ∧ x.cls ≠ 3#2 ∧ (x.cls = 2#2 → x.life.toNat ≤ 5) ∧ x.epoch = epoch

/-- A descriptor that the kernel may only retire (R38): usable, KEY, in FIRST, HALF, SECOND or LIVE (codes 1 to 4). -/
def Desc.Guarded (x : Desc) (epoch : Epoch) : Prop :=
  x.IsUsable epoch ∧ x.cls = 2#2 ∧ 1 ≤ x.life.toNat ∧ x.life.toNat ≤ 4

/-- The table of R39: `r` is the proposed value `n` with its forced fields. One with valid 0 is stored as it is; a valid
one takes the epoch, KEY besides lifecycle EMPTY and first custodian A, a DATA class lifecycle 0. -/
def ForcedFields (n r : Desc) (epoch : Epoch) : Prop :=
  (n.valid = 0#1 → r = n) ∧
  (n.valid = 1#1 → n.cls = 2#2 → r = { n with epoch := epoch, life := 0#3, cust := 0#1 }) ∧
  (n.valid = 1#1 → n.cls = 0#2 ∨ n.cls = 1#2 → r = { n with epoch := epoch, life := 0#3 }) ∧
  (n.valid = 1#1 → n.cls = 3#2 → r = { n with epoch := epoch })

/-- A write's byte enables touch descriptor `i`: one of its eight bytes is enabled (R37). -/
def Touched (enables : Marks) (i : Fin 8) : Prop := ∃ j : Nat, j < 8 ∧ enables.getLsbD (8 * i.val + j) = true

/-- The proposed value of descriptor `i` (R37): each enabled byte from the write data, each other from the stored line. -/
def Proposed (stored data : Line) (enables : Marks) (i : Fin 8) (n : Desc) : Prop :=
  ∀ b, b < 64 → n.toBits.getLsbD b =
    if enables.getLsbD (8 * i.val + b / 8) then (lineDescs data)[i].getLsbD b else (lineDescs stored)[i].getLsbD b

/-- What a merge of the proposed descriptors `n` into those stored makes (R37 to R40, R44). An untouched descriptor stays. A
touched one in FIRST, HALF, SECOND or LIVE turns RETIRED where that is proposed, and else stays, either way with the owner
bits proposed; any other is formed by R39's table. The merge is held where a change but of owner bits is kept out of one.
A retire starts a fill of the stored BPN, and from FIRST, HALF or SECOND removes the page's Entry List entry; both lists are
in the order of the descriptors. -/
def Merges (k : MapLine) (enables : Marks) (epoch : Epoch) (d n r : Fin 8 → Desc) (fills : List Fill) (held : Bool)
    (removes : List (DomId × Fpn)) : Prop :=
  let retires (i : Fin 8) : Prop := Touched enables i ∧ (d i).Guarded epoch ∧ (n i).life = 5#3
  (∀ i, ¬Touched enables i → r i = d i) ∧
  (∀ i, Touched enables i → ¬(d i).Guarded epoch → ForcedFields (n i) (r i) epoch) ∧
  (∀ i, retires i → r i = { d i with life := 5#3, owner := (n i).owner }) ∧
  (∀ i, Touched enables i → (d i).Guarded epoch → (n i).life ≠ 5#3 → r i = { d i with owner := (n i).owner }) ∧
  (held = true ↔ ∃ i, Touched enables i ∧ (d i).Guarded epoch ∧ (n i).life ≠ 5#3 ∧
    n i ≠ { d i with owner := (n i).owner }) ∧
  (fills.map fun f => (f.dom, f.fpn)).Sublist (mapLinePairs k) ∧
  (∀ f, f ∈ fills ↔ ∃ i, retires i ∧ (mapLinePairs k)[i.val]? = some (f.dom, f.fpn) ∧ f.bpn = (d i).bpn ∧ f.line = k ∧
    f.next = 0) ∧
  removes.Sublist (mapLinePairs k) ∧
  (∀ p, p ∈ removes ↔ ∃ i, retires i ∧ (d i).life ≠ 4#3 ∧ (mapLinePairs k)[i.val]? = some p)

/-! ## Selection -/

/-- `y` is the oldest request in the queue for the back line of `x` (R132). -/
def OldestFor (x y : BackReq) (b : BackCtl) : Prop :=
  ∃ older younger, b.queue = older ++ y :: younger ∧ y.line = x.line ∧ ∀ z ∈ older, z.line ≠ x.line

/-- The first four conditions of R133: the request is WAITING, no older one for its back line is in the queue, its rank is
NORMAL, and no request in service has its bank with another row. -/
def FourHold (q : BackReq) (b : BackCtl) : Prop :=
  q.inService = false ∧ OldestFor q q b ∧ b.ranks[q.place.rank].state = .normal ∧
    ∀ x ∈ b.queue, x.id ∈ b.service → x.place.rank = q.place.rank → x.place.bank = q.place.bank →
      x.place.row = q.place.row

/-- A request is eligible (R133): the first four conditions hold, and no other urgent request that is not eligible has its
bank. That one counts as eligible here where the first four hold of the oldest request for its line (log entry 37). -/
def MayBeSelected (q : BackReq) (b : BackCtl) : Prop :=
  FourHold q b ∧ ∀ x ∈ b.queue, x.urgent = true → x ≠ q → x.place.rank = q.place.rank → x.place.bank = q.place.bank →
    ∃ y, OldestFor x y b ∧ FourHold y b

/-- A request is a row hit: its bank is ACTIVE on its row in the bank record (R133). -/
def HitsRow (q : BackReq) (b : BackCtl) : Prop := (b.bank q.place.rank q.place.bank).row = some q.place.row

/-! ## The command path -/

/-- A precharge command for a bank meets R123 at clock `t`; one with an automatic precharge to come takes none (log entry
23). Write bursts still on their way count for tWR (log entry 24). -/
def PreMeets (r : Fin 2) (i : Fin 8) (t : Nat) (b : BackCtl) : Prop :=
  (b.bank r i).row ≠ none ∧ (b.bank r i).closing = none ∧
    (∀ c, (b.bank r i).lastAct = some c → c + b.timing.tRAS ≤ t) ∧
    (∀ c, (b.bank r i).lastRead = some c → c + b.timing.tRTP ≤ t) ∧
    ∀ c, b.writeEnd r i = some c → c + b.timing.tWR ≤ t

/-- An activation of a bank meets R121 at clock `t`. -/
def ActMeets (r : Fin 2) (i : Fin 8) (t : Nat) (b : BackCtl) : Prop :=
  (b.bank r i).row = none ∧ (∀ c, (b.bank r i).lastPre = some c → c + b.timing.tRP ≤ t) ∧
    (∀ c, b.ranks[r].history.getLast? = some c → c + b.timing.tRRD ≤ t) ∧
    (∀ c, b.ranks[r].history.head? = some c → 4 ≤ b.ranks[r].history.length → c + b.timing.tFAW ≤ t) ∧
    b.ranks[r].state = .normal

/-- The read or write command of a request meets R122 at clock `t`; its bank has no automatic precharge to come (log entry
23). Write bursts still on their way count for tWTR (log entry 24). -/
def ColMeets (q : BackReq) (t : Nat) (b : BackCtl) : Prop :=
  let k := b.bank q.place.rank q.place.bank
  let begin := t + (if q.write then b.timing.rl - 1 else b.timing.rl)
  k.row = some q.place.row ∧ k.closing = none ∧ (∀ c, k.lastAct = some c → c + b.timing.tRCD ≤ t) ∧
    (∀ x, b.dataPath = some x →
      x.finish + (if x.rank = q.place.rank ∧ x.write = q.write then 0 else 2) ≤ begin) ∧
    (q.write = false → ∀ i c, b.writeEnd q.place.rank i = some c → c + b.timing.tWTR ≤ t)

/-- What refreshing a rank takes at clock `t` (R127, R128): with all its banks IDLE and tRP passed, the refresh; with one
ACTIVE, a precharge of the lowest-numbered that meets R123. -/
def RefreshTakes (r : Fin 2) (t : Nat) (b : BackCtl) (x : PathCmd) : Prop :=
  ((∀ i, (b.bank r i).row = none ∧ ∀ c, (b.bank r i).lastPre = some c → c + b.timing.tRP ≤ t) ∧ x = .refresh r) ∨
    ∃ i, x = .precharge r i ∧ PreMeets r i t b ∧ ∀ j, j < i → ¬PreMeets r j t b

/-- What a request in service takes at clock `t` short of its read or write command (R135): a precharge of its bank when
that is ACTIVE on another row, its activation when that is IDLE. -/
def Prepares (q : BackReq) (t : Nat) (b : BackCtl) (x : PathCmd) : Prop :=
  ((b.bank q.place.rank q.place.bank).row ≠ some q.place.row ∧ PreMeets q.place.rank q.place.bank t b ∧
      x = .precharge q.place.rank q.place.bank) ∨
    (ActMeets q.place.rank q.place.bank t b ∧ x = .activate q.place.rank q.place.bank q.place.row)

/-- An idle close of a bank meets R124 and R123 at clock `t`: at least tIDLE clocks since its last column command, and no
request in the queue for its row. -/
def IdleCloses (r : Fin 2) (i : Fin 8) (t : Nat) (b : BackCtl) : Prop :=
  PreMeets r i t b ∧
    (b.timing.tIDLE ≠ 0 → ∀ c, (b.bank r i).lastCol = some c → c + b.timing.tIDLE ≤ t) ∧
    ∀ q ∈ b.queue, q.place.rank = r → q.place.bank = i → (b.bank r i).row ≠ some q.place.row

/-- What the five places of R125 take at clock `t`. -/
def PlaceTakes (t : Nat) (b : BackCtl) (x : PathCmd) : Nat → Prop
  | 1 => ∃ r : Fin 2, b.ranks[r].state = .forced ∧ RefreshTakes r t b x ∧
      ∀ r' : Fin 2, r' < r → b.ranks[r'].state = .forced → ∀ y, ¬RefreshTakes r' t b y
  | 2 => ∃ q, b.served.head? = some q ∧ ColMeets q t b ∧ x = .column q.id
  | 3 => ∃ before q after, b.served = before ++ q :: after ∧ Prepares q t b x ∧
      ∀ p ∈ before, ∀ y, ¬Prepares p t b y
  | 4 =>
    let due (r : Fin 2) : Prop :=
      b.ranks[r].state = .normal ∧ 1 ≤ b.ranks[r].due ∧ ∀ q ∈ b.queue, q.place.rank ≠ r
    ∃ r : Fin 2, due r ∧ RefreshTakes r t b x ∧ ∀ r' : Fin 2, r' < r → due r' → ∀ y, ¬RefreshTakes r' t b y
  | 5 => ∃ r i, x = .precharge r i ∧ IdleCloses r i t b ∧
      ∀ r' i', r' < r ∨ r' = r ∧ i' < i → ¬IdleCloses r' i' t b
  | _ => False

/-- A rank has become FORCED (R128): its requests in service have left the service list and are WAITING in their places,
each with a count and urgency no lower than before, raised to the largest count of the younger requests for its line. -/
def ForcedOn (r : Fin 2) (s u : State) : Prop :=
  u = { s with back := { s.back with ranks := u.back.ranks, queue := u.back.queue, service := u.back.service } } ∧
  u.back.ranks[r] = { s.back.ranks[r] with state := .forced } ∧
  (∀ r' : Fin 2, r' ≠ r → u.back.ranks[r'] = s.back.ranks[r']) ∧
  u.back.service = (s.back.service.filter fun n => (s.back.request n).any fun q => q.place.rank != r) ∧
  u.back.queue.length = s.back.queue.length ∧
  ∀ (n : Nat) (q : BackReq), s.back.queue[n]? = some q →
    (¬(q.inService = true ∧ q.place.rank = r) → u.back.queue[n]? = some q) ∧
    (q.inService = true → q.place.rank = r →
      ∃ k : Nat, q.passOver ≤ k ∧
        (∀ (m : Nat) (x : BackReq), n < m → s.back.queue[m]? = some x → x.line = q.line → x.passOver ≤ k) ∧
        (k = q.passOver ∨
          ∃ (m : Nat) (x : BackReq), n < m ∧ s.back.queue[m]? = some x ∧ x.line = q.line ∧ k = x.passOver) ∧
        u.back.queue[n]? = some { q with
          inService := false, passOver := k, urgent := q.urgent || decide (16 ≤ k) })

/-- Clock `c` is the first at which the automatic precharge of a bank, asked for at `from'`, meets R123. -/
def AutoAt (r : Fin 2) (i : Fin 8) (from' c : Nat) (b : BackCtl) : Prop :=
  ∀ n, c ≤ n ↔ from' ≤ n ∧ (∀ a, (b.bank r i).lastAct = some a → a + b.timing.tRAS ≤ n) ∧
    (∀ a, (b.bank r i).lastRead = some a → a + b.timing.tRTP ≤ n) ∧
    ∀ a, b.writeEnd r i = some a → a + b.timing.tWR ≤ n

/-! ## Detections -/

/-- A command that is a detection with a cause (R143). -/
def Detects (c : Instr) (cause : Cause) (s : State) : Prop :=
  match c with
  | .channelDetection i => ∃ high, s.mon.channels[i].detected = some high ∧ cause = channelCause i high
  | .meshDetection m => s.mon.meshes[m].detected = true ∧ cause = .mesh m
  | .lidRegistered isOpen => isOpen = true ∧ s.mon.lid.on = false ∧ cause = .lid
  | .panelRegistered pressed => pressed = true ∧ s.mon.panel.on = false ∧ cause = .panel
  | .zeroise f => (live s = true ∧ f.addr = linkAddress s ∧ f.args = []) ∧ cause = .command
  | _ => False

/-- What a detection's row makes of the Tamper Monitor but for record and test set (R147, R152, R154, R157): the mark of the
detection it takes is cleared (log entry 10), LID stands OPEN or PANEL PRESSED with its count at 0, and the rest stays. -/
def DetectionTaken (c : Instr) (m m' : Monitor) : Prop :=
  m' = { m with
    record := m'.record, testSet := m'.testSet, channels := m'.channels, meshes := m'.meshes
    lid := match c with
      | .lidRegistered _ => { on := true, count := 0 }
      | _ => m.lid
    panel := match c with
      | .panelRegistered _ => { on := true, count := 0 }
      | _ => m.panel } ∧
  (∀ i : Fin 8, m'.channels[i] =
    if c = .channelDetection i then { m.channels[i] with detected := none } else m.channels[i]) ∧
  ∀ i : Fin 2, m'.meshes[i] = if c = .meshDetection i then { m.meshes[i] with detected := false } else m.meshes[i]

/-- An alarm condition is present (R161). -/
def AlarmCondition (m : Monitor) : Prop :=
  (∃ c : Fin 8, m.channels[c].enable = true ∧
    ∀ code, m.channels[c].last = some code → code < m.channels[c].low ∨ m.channels[c].high < code) ∨
  (∃ i : Fin 2, m.meshes[i].enable = true ∧ m.meshes[i].count ≠ 0) ∨ m.lid.on = true

/-! ## What an empty queue lets happen -/

/-- A sample of a switched input before its change is registered: an equal one returns the count to 0, a differing one
raises it, and the 64th leaves it for the registering row (R94, R154). -/
def Sampled (level : Bool) (x y : SampledInput) : Prop :=
  (level = x.on → y = { x with count := 0 }) ∧
    (level ≠ x.on → x.count < 63 → y = { x with count := x.count + 1 }) ∧ (level ≠ x.on → 63 ≤ x.count → y = x)

/-- The 64th sample that differs has come, so the change is registered (R94, R154). -/
def Registers (level : Bool) (x : SampledInput) : Prop := level ≠ x.on ∧ 63 ≤ x.count

/-! ## Power -/

/-- A write burst that has begun by the current clock puts byte `i` of its line at address `a`: its mask is clear (R118,
R139). -/
def Covers (b : BackCtl) (x : Burst) (i : Fin 64) (a : Nat) : Prop :=
  x.req.write = true ∧ x.start ≤ b.clock ∧ a = backAddr x.req.line + i.val ∧ x.req.masks.getLsbD i.val = false

/-- What mains loss and RST leave alike (R92, R100, R139, R177, R179; log entries 12, 33, 35). -/
def MainStopped (s u : State) : Prop :=
  u.front.slots = [] ∧ u.front.held = none ∧ u.xlat = .reset ∧ u.maps = .reset ∧ u.entry.waiting = [] ∧
    u.entry.work = none ∧ u.entry.windowA.state = .shut ∧ u.entry.windowB.state = .shut ∧ u.entry.list = s.entry.list ∧
    u.entry.domain = s.entry.domain ∧ u.entry.limit = s.entry.limit ∧ u.entry.switchA = s.entry.switchA ∧
    u.entry.switchB = s.entry.switchB ∧ u.back.queue = [] ∧ u.back.service = [] ∧ u.back.waiting = [] ∧
    u.back.bursts = [] ∧ u.back.timing = s.back.timing ∧ u.back.startUp = none ∧
    u.run = { counter := 0, compare := s.run.compare } ∧
    (∀ d : Fin 64, s.doms[d].state = .opened → u.doms[d] =
      { state := .closed, epoch := s.doms[d].epoch, lease := 0#16, staged := none, ending := false }) ∧
    (∀ d : Fin 64, s.doms[d].state ≠ .opened → u.doms[d] = s.doms[d]) ∧
    u.seeds = s.seeds ∧ u.cab.cabinet = s.cab.cabinet ∧ u.cab.sub = s.cab.sub ∧ u.cab.scrubOn = s.cab.scrubOn ∧
    u.cab.bg.op = .idle ∧ u.cab.bg.next = 0 ∧ u.cab.bg.completed = 0 ∧ live u = false ∧ alertOutput u = false

/-- What mains return and the end of RST leave, be the main domain held still or not: its blocks empty, the Back Controller
before START-UP, with the power-up sequence or without, the cabinet state moved, the battery domain and the memory kept, the
answer slot EMPTY and the address strap sampled (R140, R178, R179, R192, R199). -/
def MainEmpty (powerUp : Bool) (strap : BitVec 2) (s u : State) : Prop :=
  u.front.slots = [] ∧ u.front.held = none ∧ u.front.pabCopy = s.seeds.pab ∧ u.xlat = .reset ∧ u.maps = .reset ∧
    u.entry.waiting = [] ∧ u.entry.work = none ∧ u.entry.windowA = .reset ∧ u.entry.windowB = .reset ∧
    u.entry.list = s.entry.list ∧ u.entry.domain = s.entry.domain ∧ u.entry.limit = s.entry.limit ∧
    u.entry.switchA = s.entry.switchA ∧ u.entry.switchB = s.entry.switchB ∧
    u.back.queue = [] ∧ u.back.service = [] ∧ u.back.waiting = [] ∧ u.back.bursts = [] ∧
    u.back.timing = s.back.timing ∧ u.back.startUp = some { powerUp := powerUp, start := u.back.clock } ∧
    u.run = { counter := 0, compare := s.run.compare } ∧ u.doms = s.doms ∧ u.seeds = s.seeds ∧ u.mon = s.mon ∧
    u.mem = s.mem ∧ u.cab.scrubOn = s.cab.scrubOn ∧ u.cab.power = .mains ∧
    u.cab.cabinet = (if s.cab.cabinet = .ready then .restore else s.cab.cabinet) ∧
    (s.cab.cabinet = .zeroed → u.cab.sub = .quiet) ∧ u.link.slot = .empty ∧ u.link.strap = strap

/-- The main domain works again after mains return or RST (R178, R179, R190). -/
def MainReturned (powerUp : Bool) (strap : BitVec 2) (s u : State) : Prop :=
  MainEmpty powerUp strap s u ∧ live u = true ∧
    u.cab.bg.op = (if s.cab.cabinet = .clearing then .mapClear else .idle) ∧ u.cab.bg.next = 0 ∧
    u.cab.bg.completed = 0 ∧
    u.ev.flags = (if s.mon.record.valid then Flag.mainsReturn.mark ||| Flag.tamper.mark else Flag.mainsReturn.mark) ∧
    u.ev.enables = BitVec.allOnes 11 ∧ u.ev.record = none ∧ u.ev.overwritten = false ∧ u.ev.count = 0#16 ∧
    u.ev.expired = 0#64

/-! ## The link -/

/-- A write transfer reaches the link with `n` argument bytes (R192, R193). -/
def Sent (f : Frame) (n : Nat) (s : State) : Prop := live s = true ∧ f.addr = linkAddress s ∧ f.args.length = n

/-- A write transfer reaches the link with these argument bytes (R192, R193). -/
def SentArgs (f : Frame) (args : List Byte) (s : State) : Prop :=
  live s = true ∧ f.addr = linkAddress s ∧ f.args = args

/-- The number that bytes spell, low byte first (R204). -/
def leNat : List Byte → Nat
  | [] => 0
  | b :: rest => b.toNat + 256 * leNat rest

/-- The field of `n` bytes at an offset of a readout's data (R204). -/
def leAt (data : List Byte) (offset n : Nat) : Nat := leNat ((data.drop offset).take n)

/-- The state once a command is answered: the answer is in the slot (R195). -/
def State.answer (c : AnsCode) (data : List Byte) (s : State) : State :=
  { s with link := { s.link with slot := .ready c data, acked := true } }

/-- The frame of a row whose command code is one of the 29, and the argument count of its code (section 11.4). -/
def linkRow : Instr → Option (Frame × Nat)
  | .status f => some (f, 0)
  | .commission f => some (f, 0)
  | .recommission f => some (f, 0)
  | .resume f => some (f, 0)
  | .clearMap f => some (f, 0)
  | .zeroise f => some (f, 0)
  | .enrol f => some (f, 1)
  | .erase f => some (f, 1)
  | .openRun f => some (f, 3)
  | .extendRun f => some (f, 3)
  | .closeRun f => some (f, 1)
  | .readDomain f => some (f, 1)
  | .readExpired f => some (f, 0)
  | .clearExpired f => some (f, 8)
  | .setEntry f => some (f, 1)
  | .abandonEntry f => some (f, 0)
  | .readEntry f => some (f, 1)
  | .lock f => some (f, 3)
  | .unlock f => some (f, 3)
  | .demapPage f => some (f, 3)
  | .demapDomain f => some (f, 1)
  | .demapAll f => some (f, 0)
  | .readRefusal f => some (f, 0)
  | .clearRefusal f => some (f, 0)
  | .readTamper f => some (f, 0)
  | .ackTamper f => some (f, 0)
  | .readResults f => some (f, 0)
  | .clearEvents f => some (f, 2)
  | .configurePab f => some (f, 8)
  | .configureBackTiming f => some (f, 8)
  | .configurePagePolicy f => some (f, 8)
  | .configureRunCompare f => some (f, 8)
  | .configureEntryLimit f => some (f, 8)
  | .configureChannelSettings f => some (f, 8)
  | .configureMeshSettings f => some (f, 8)
  | .configureConverterMode f => some (f, 8)
  | .configureScrubSetting f => some (f, 8)
  | .configureEventEnables f => some (f, 8)
  | _ => none

/-- A CONFIGURE transfer with this item, index and value bytes (R201). -/
def SentItem (f : Frame) (item index : Nat) (v : List Byte) (s : State) : Prop :=
  live s = true ∧ f.addr = linkAddress s ∧ v.length = 6 ∧ item < 256 ∧ index < 256 ∧
    f.args = BitVec.ofNat 8 item :: BitVec.ofNat 8 index :: v

/-- BLANK or ZEROED. -/
def Settable (s : State) : Prop := s.cab.cabinet = .blank ∨ s.cab.cabinet = .zeroed

end Sys2Proof.Machine
end

