-- ==== Sys2Proof/Certificates/Slice0/Obligations.lean ====
section
/-! DEFINITION. The statements about the machine. -/

section

open Sys2Proof Sys2Proof.Machine

/-- The queue is first in, first out: a step carries out the command at its front on the state with the queue's rest.
-/
def Obligations.StepTakesFront : Prop :=
  ∀ (c : Instr) (rest : List Instr) (s : State), s.pending = c :: rest → step s = exec c { s with pending := rest }

/-- What reset leaves (R180, R178, R190, R71, R94, R140, R162), taken as first battery connection with PGOOD high (log
entry 1): BLANK with no seed, every domain VACANT under epoch 0, the defaults of the settings, of the channels, the
meshes and the converter, every switched input registered OFF, CLOSED or RELEASED, and the main domain as after a mains
return. The fields of an empty buffer entry (log entry 33), the queue, what is to arrive and the numbering of clocks and
memory eras are the model's (log entries 2, 6 and 8). -/
def Obligations.ResetValues : Prop :=
  State.reset.cab.cabinet = .blank ∧ State.reset.seeds.clearPending = false ∧ State.reset.cab.scrubOn = true ∧
  State.reset.cab.power = .mains ∧ State.reset.cab.rst = false ∧ State.reset.cab.bg.op = .idle ∧
  armed State.reset = false ∧ State.reset.seeds.root = none ∧ (∀ d : Fin 64, State.reset.seeds.domains[d] = none) ∧
  (∀ d : Fin 64, State.reset.doms[d] =
    { state := .vacant, epoch := 0#8, lease := 0#16, staged := none, ending := false }) ∧
  (∀ c : Fin 8, State.reset.mon.channels[c] =
    { enable := true, low := 0#8, high := 255#8, depth := 3, count := 0, last := none, detected := none }) ∧
  (∀ i : Fin 2, State.reset.mon.meshes[i] =
    { enable := true, period := 64, dead := 2, tol := 4, depth := 3, phase := 0, interval := 0, referenced := false
      count := 0, detected := false }) ∧
  State.reset.mon.mode = .sweep ∧ State.reset.mon.lastConv = none ∧ State.reset.mon.history = [] ∧
  State.reset.mon.testSet = 0#21 ∧ State.reset.mon.lid = { on := false, count := 0 } ∧
  State.reset.mon.panel = { on := false, count := 0 } ∧ State.reset.entry.switchA = { on := false, count := 0 } ∧
  State.reset.entry.switchB = { on := false, count := 0 } ∧
  State.reset.mon.record.valid = false ∧ State.reset.mon.seconds = 0#32 ∧ State.reset.entry.list = [] ∧
  State.reset.entry.windowA = { state := .shut, remaining := 0#16, ending := false } ∧
  State.reset.entry.windowB = { state := .shut, remaining := 0#16, ending := false } ∧
  State.reset.entry.work = none ∧ State.reset.entry.waiting = [] ∧
  State.reset.entry.domain = none ∧ State.reset.entry.limit = 900#16 ∧ pabBase State.reset.seeds.pab = 0x78000000 ∧
  pabBase State.reset.front.pabCopy = 0x78000000 ∧
  State.reset.back.timing = { tRCD := 6, tRP := 6, tRAS := 18, tRRD := 4, tFAW := 24, rl := 6, tWR := 6, tWTR := 4,
                              tRTP := 4, tRFC := 104, tREFI := 3120, tIDLE := 32 } ∧
  State.reset.run = { counter := 0, compare := 4095 } ∧ State.reset.front.slots = [] ∧ State.reset.front.held = none ∧
  State.reset.xlat.walks = [] ∧ State.reset.xlat.waiting = [] ∧
  (∀ i : Fin 16, State.reset.xlat.fixed[i].held.valid = false ∧ State.reset.xlat.fixed[i].lock = false ∧
    State.reset.xlat.fixed[i].used = false) ∧
  (∀ i : Fin 256, State.reset.xlat.sets[i].way0.valid = false ∧ State.reset.xlat.sets[i].way1.valid = false ∧
    State.reset.xlat.sets[i].recentOne = false) ∧
  State.reset.maps.updates = [] ∧ State.reset.maps.requests = [] ∧ State.reset.maps.fills = [] ∧
  State.reset.back.queue = [] ∧ State.reset.back.service = [] ∧ State.reset.back.waiting = [] ∧
  State.reset.back.startUp.map StartUp.powerUp = some true ∧ State.reset.ev.flags = Flag.mainsReturn.mark ∧
  State.reset.ev.enables = BitVec.allOnes 11 ∧ State.reset.ev.record = none ∧ State.reset.ev.count = 0#16 ∧
  State.reset.ev.expired = 0#64 ∧ State.reset.link.slot = .empty

/-- The laws that MemoryLawKept, KeyLawsKept, ListLawsKept and BufferLawKept have every step keep hold at reset, that is
right after first battery connection with PGOOD high and RST not asserted (R180; log entry 1, the model's). No lease and no
window that a run pulse ended is left to take there either (log entry 9): that is no law of every step, RUN_PULSE leaves
such ends, but a premise of other statements. -/
def Obligations.ResetKeepsLaws : Prop :=
  State.reset.mem.wf ∧ CabinetLaw State.reset ∧ DomainLaw State.reset ∧ SlotLaw State.reset ∧ QueueLaw State.reset ∧
    EntryLaw State.reset ∧ UpdateLaw State.reset ∧ FillLaw State.reset ∧ WalkLaw State.reset ∧ BufferLaw State.reset ∧
    PulseTaken State.reset ∧ FollowingLaw State.reset ∧ MapLaw State.reset

/-- The port (R2, R3, R8). A transaction presented while no slot is FREE, or while its tag is in use, is held and
nothing else changes. A transaction to a front line that an older outstanding one is to takes a slot in FOLLOWING,
whether it is accepted when presented or from the hold, and nothing else changes. While a transaction is held none is
presented (log entry 16), and it stays held until the port can take it. -/
def Obligations.PortHoldsAndOrders : Prop :=
  (∀ (t : Txn) (s : State), live s = true → s.front.held = none → PulseTaken s →
     (16 ≤ s.front.slots.length ∨ ∃ x ∈ s.front.slots, x.txn.tag = t.tag) →
     exec (.frontTransaction t) s = .next { s with front := { s.front with held := some t } }) ∧
  (∀ (t t' : Txn) (s : State), s.front.held = some t' → PulseTaken s →
     exec (.frontTransaction t) s = .next s ∧
     (16 ≤ s.front.slots.length ∨ (∃ x ∈ s.front.slots, x.txn.tag = t'.tag) →
       exec .heldTransactionAccepted s = .next s)) ∧
  (∀ (t : Txn) (s : State), PulseTaken s → (∃ x ∈ s.front.slots, x.txn.line = t.line) →
     (Presentable t s → exec (.frontTransaction t) s = .next { s with front := { s.front with
       slots := s.front.slots ++ [newSlot t] } }) ∧
     (s.front.held = some t → Presentable t { s with front := { s.front with held := none } } →
       exec .heldTransactionAccepted s = .next { s with front := { s.front with
         held := none, slots := s.front.slots ++ [newSlot t] } }))

/-- Transactions that start, when presented, from the hold or FOLLOWING, and pass the checks of R8 (R4, R9, R15, R16, R21,
R25, R32, R34, R52, R58, R88, R131). A PLAIN one is served at the same back address, a RAW WINDOW one at PAB plus its offset.
A map-window read reads its map line from beat 0, or waits to enter the Back Queue, or is held while an update holds the
line; a write waits for the Update List, unless it enables no byte. A KEY WINDOW one that hits goes on with the page found,
whose mark is set; one that misses joins the unstale walk for its pair, starts one while fewer than four are listed, or
waits. Behind released transactions still to be placed it starts none for which no entry is left over (log entry 22). -/
def Obligations.TransactionStarts : Prop :=
  ∀ (c : Instr) (t : Txn) (s s₀ : State), PulseTaken s → StartsAs c t s s₀ →
    (regionOf t.line = .plain → (s.cab.cabinet = .blank ∨ inProtectedArea s.front.pabCopy (plainLine t.line) = false) →
      ∃ u, exec c s = .next u ∧ Serves t .plain (plainLine t.line) s₀ u) ∧
    (regionOf t.line = .raw → s.cab.cabinet = .ready ∨ s.cab.cabinet = .restore → t.dom = 0#6 → t.priv = .kernel →
      ∃ u, exec c s = .next u ∧ Serves t .raw (rawLine s.front.pabCopy t.line) s₀ u) ∧
    (regionOf t.line = .map → s.cab.cabinet = .ready → t.dom = 0#6 → t.priv = .kernel →
      (t.dir = .read → (∃ v ∈ s.maps.updates, v.line = mapWindowLine t.line) →
        exec c s = .next (s₀.moveSlot t.tag .map .mapReadHeld)) ∧
      (t.dir = .read → (∀ v ∈ s.maps.updates, v.line ≠ mapWindowLine t.line) → mayEnter (.front t.tag) s = true →
        exec c s = .next { s₀.moveSlot t.tag .map
            (.readOut (mapBackLine s.front.pabCopy (mapWindowLine t.line)) s.back.nextId) with
          back := s.back.push false (mapBackLine s.front.pabCopy (mapWindowLine t.line)) .front 0#3 zeroLine 0#64 }) ∧
      (t.dir = .read → (∀ v ∈ s.maps.updates, v.line ≠ mapWindowLine t.line) → mayEnter (.front t.tag) s = false →
        exec c s = .next { s₀.moveSlot t.tag .map (.readWait (mapBackLine s.front.pabCopy (mapWindowLine t.line))) with
          back := s.back.await (.front t.tag) }) ∧
      (t.dir = .write → t.enables = 0#64 →
        exec c s = .next (s₀.moveSlot t.tag .map (.responding .done zeroLine))) ∧
      (t.dir = .write → t.enables ≠ 0#64 → exec c s = .next { s₀.moveSlot t.tag .map .updateWait with
        maps := { s.maps with requests := s.maps.requests ++ [.kernel t.tag (mapWindowLine t.line)] } })) ∧
    (regionOf t.line = .key → s.cab.cabinet = .ready →
      domState s t.dom = .opened ∨ domState s t.dom = .closed ∧ t.dir = .write →
      (∀ p t', Finds t.dom (keyFpn t.line) s.xlat p t' →
        ∃ u, exec c s = .next u ∧ GoesOn t p { s₀ with xlat := t' } u) ∧
      (Misses t.dom (keyFpn t.line) s.xlat →
        (∀ w, s.xlat.walkFor t.dom (keyFpn t.line) = some w → w.stale = false →
          exec c s = .next { s₀.moveSlot t.tag .key .walkWaiter with
            xlat := { s.xlat with walks := joinedWalks t.dom (keyFpn t.line) t.tag s.xlat.walks } }) ∧
        (s.xlat.walkFor t.dom (keyFpn t.line) = none →
          s.xlat.walks.length + (s.xlat.waiting.filter fun v => v.released).length < 4 →
          exec c s = .next ((s₀.moveSlot t.tag .key .walkWaiter).walkStarted t.dom (keyFpn t.line) [t.tag] false)) ∧
        (∀ released, (∃ w, s.xlat.walkFor t.dom (keyFpn t.line) = some w ∧ w.stale = true) ∧ released = false ∨
            s.xlat.walkFor t.dom (keyFpn t.line) = none ∧ 4 ≤ s.xlat.walks.length ∧ released = false ∨
            s.xlat.walkFor t.dom (keyFpn t.line) = none ∧ s.xlat.walks.length < 4 ∧
              4 ≤ s.xlat.walks.length + (s.xlat.waiting.filter fun v => v.released).length ∧ released = true →
          exec c s = .next { s₀.moveSlot t.tag .key .walkWaiting with
            xlat := { s.xlat with waiting := s.xlat.waiting ++ [{ tag := t.tag, released := released }] } })))

/-- The checks at a transaction's start, when it is presented, from the hold or FOLLOWING, in their order, each with its
status and report: NOWHERE outside every region (R4); SHADOW for a PLAIN line in the protected area outside BLANK (R9);
UNREADY for a window that the cabinet state does not serve (R6); DENIED (DOMAIN), then DENIED (PRIVILEGE), in the MAP and
RAW WINDOW (R7); CLOSED in the KEY WINDOW for a read of a domain that is not OPEN and for a write of a VACANT or SPENT
one (R87). The refused transaction makes no back request and leaves every other block as it was. The kinds rank as R181
lists them, each with its front status, and a report updates record, count and REFUSAL by R183 and R184. -/
def Obligations.StartRefusals : Prop :=
  (∀ (c : Instr) (t : Txn) (s s₀ : State), PulseTaken s → StartsAs c t s s₀ →
    (regionOf t.line = .unclaimed → exec c s = .next (s₀.refused t .unclaimed .nowhere .noReason)) ∧
    (regionOf t.line = .plain → s.cab.cabinet ≠ .blank → inProtectedArea s.front.pabCopy (plainLine t.line) = true →
      exec c s = .next (s₀.refused t .plain .shadow .noReason)) ∧
    (∀ r, regionOf t.line = r → r = .key ∨ r = .map → s.cab.cabinet ≠ .ready →
      exec c s = .next (s₀.refused t r .unready .noReason)) ∧
    (regionOf t.line = .raw → s.cab.cabinet ≠ .ready → s.cab.cabinet ≠ .restore →
      exec c s = .next (s₀.refused t .raw .unready .noReason)) ∧
    (∀ r, regionOf t.line = r → r = .map ∧ s.cab.cabinet = .ready ∨
        r = .raw ∧ (s.cab.cabinet = .ready ∨ s.cab.cabinet = .restore) →
      (t.dom ≠ 0#6 → exec c s = .next (s₀.refused t r .denied .domain)) ∧
      (t.dom = 0#6 → t.priv = .app → exec c s = .next (s₀.refused t r .denied .privilege))) ∧
    (regionOf t.line = .key → s.cab.cabinet = .ready →
      domState s t.dom = .vacant ∨ domState s t.dom = .spent ∨ domState s t.dom = .closed ∧ t.dir = .read →
      exec c s = .next (s₀.refused t .key .closed .noReason))) ∧
  [Kind.held, .unready, .nowhere, .closed, .absent, .shadow, .denied].map (fun k => (k.rank, k.status)) =
    [(1, .done), (2, .unready), (3, .nowhere), (4, .closed), (5, .absent), (6, .shadow), (7, .denied)] ∧
  ∀ (r : Report) (e : EventUnit), RefusalTaken r e (e.take r)

/-- The response of a RESPONDING transaction that is the oldest to its line is delivered: its slot is FREE, a read's
eight beats come in burst order from its starting beat, a write's response carries none (R2, R10, R12, R13, R14). The same
delivery starts the next transaction to that line if it is FOLLOWING (R14), as TransactionStarts and StartRefusals have
FOLLOWING_START do; else nothing more changes. That a transaction held at the port is accepted in a row of its own is log
entry 43. Responses to one front line are delivered in the order of acceptance (R10): where a delivery changes anything,
the slot it frees was RESPONDING and no older outstanding transaction was to its line. -/
def Obligations.ResponseDelivered : Prop :=
  (∀ (tag : Tag) (s left : State) (x : Slot) (st : Status) (data : Line), PulseTaken s → live s = true → SlotLaw s →
    findSlot s tag = some x → x.phase = .responding st data →
    (∀ y ∈ s.front.slots.takeWhile (fun z => z.txn.tag != tag), y.txn.line ≠ x.txn.line) →
    left = { s with front := { s.front with
      slots := s.front.slots.filter (fun y => y.txn.tag != tag)
      response := some { tag := tag, status := st, beats := if x.txn.dir = .read then
        [0, 1, 2, 3, 4, 5, 6, 7].map (fun i : Fin 8 => lineBeat data (Fin.ofNat 8 (x.txn.beat.toNat + i.val))) else [] } } } →
    ∃ u, exec (.responseDelivery tag) s = .next u ∧ findSlot u tag = none ∧ u.front.response = left.front.response ∧
      (LineFree x.txn.line left → u = left) ∧
      ∀ before y after, left.front.slots = before ++ y :: after → y.txn.line = x.txn.line →
        (∀ z ∈ before, z.txn.line ≠ x.txn.line) →
        (y.phase = .following → exec (.followingStart y.txn.tag) left = .next u) ∧ (y.phase ≠ .following → u = left)) ∧
  (∀ (tag : Tag) (s u : State), PulseTaken s → exec (.responseDelivery tag) s = .next u → u ≠ s →
    ∃ older x younger st data, s.front.slots = older ++ x :: younger ∧ x.txn.tag = tag ∧ x.phase = .responding st data ∧
      ∀ y ∈ older, y.txn.line ≠ x.txn.line)

/-- The Back Queue has room for a request while it holds fewer than 24, and for a background one while it holds 12 or fewer;
the first of the waiting makers that it has room for enters next, and a request that is offered enters when it is that one,
or when no waiting one has room and it has (R131). The maker whose turn it is enters at BACK_QUEUE_ENTRY: a front line read,
from its starting beat but for a map-window read (one offered enters whatever updates have been taken since, log entry 46)
and the read of a read-modify-write (R25); a PLAIN, RAW WINDOW or KEY WINDOW write's line, answered DONE, a raw one into the
map watched (R15, R48, R89); a KEY WINDOW write whose key was destroyed is refused CLOSED (R83; log entry 15); a walk's and
an update's line read from beat 0 (R34, R59); the Entry Unit's combining read, or its line, enciphered then, which joins its
set and is answered DONE (R105 to R107), or is refused CLOSED when its domain has no key (R75, R83), and
the entry a first write has added goes (R12; log entry 31); a LIVE
zero fill's next line, the one after it then beginning to wait (R110; log entry 20). -/
def Obligations.WaitingMakerEnters : Prop :=
  (∀ (s : State) (w : Waiter),
    (firstReady s = some w ↔
      ∃ before after, s.back.waiting = before ++ w :: after ∧ Room w s ∧ ∀ v ∈ before, ¬Room v s) ∧
    (mayEnter w s = true ↔ Room w s ∧ ((∀ v ∈ s.back.waiting, ¬Room v s) ∨ firstReady s = some w))) ∧
  ∀ (s s' : State) (w : Waiter), live s = true → SlotLaw s → firstReady s = some w →
    s' = { s with back := s.back.admitted w } →
    (∀ tag x l r, w = .front tag → findSlot s tag = some x → x.phase = .readWait l → x.region = some r →
      exec .backQueueEntry s = .next { s'.moveSlot tag r (.readOut l s.back.nextId) with
        back := s'.back.push false l .front (if x.txn.dir = .read ∧ r ≠ .map then x.txn.beat else 0#3) zeroLine 0#64 }) ∧
    (∀ tag x l d r, w = .front tag → findSlot s tag = some x → x.phase = .writeWait l d → x.region = some r →
      (r = .plain ∨ r = .raw ∨ r = .key ∧ x.keyLost = false ∧ (lineKey s x.txn.dom).isSome = true →
        ∃ u, exec .backQueueEntry s = .next u ∧ LineEnters x.txn r l d s' u) ∧
      (r = .key → x.keyLost = true ∨ lineKey s x.txn.dom = none →
        exec .backQueueEntry s = .next (s'.refused x.txn .key .closed .noReason))) ∧
    (∀ d f, w = .walk d f → exec .backQueueEntry s = .next { s' with
      xlat := { s.xlat with walks := s.xlat.walks.map fun v =>
        if v.dom = d ∧ v.fpn = f then { v with req := some s.back.nextId } else v }
      back := s'.back.push false (mapBackLine s.seeds.pab (mapLineOf d f)) .walk 0#3 zeroLine 0#64 }) ∧
    (∀ k, w = .updateRead k → exec .backQueueEntry s = .next { s' with
      maps := { s.maps with updates := s.maps.updates.map fun v =>
        if v.line = k then { v with state := .reading (some s.back.nextId) } else v }
      back := s'.back.push false (mapBackLine s.seeds.pab k) .update 0#3 zeroLine 0#64 }) ∧
    (∀ c y, w = .entry → s.entry.work = some (.component c) → findSlot s c.tag = some y → y.region = some .key →
      c.stage ≠ .firstUpdate → c.stage ≠ .combineUpdate →
      ∃ u, exec .backQueueEntry s = .next u ∧ EntryEnters c s' u) ∧
    (∀ x d f i left out rest e k l, w = .liveFill →
      s.entry.work = some (.finalising x d f (.filling (i :: left) out) rest) → findEntry s d f = some e →
      lineKey s d = some k → l = keyBackLine s.seeds.pab e.bpn i →
      ∃ b : BackCtl, b = s'.back.push true l .fill 0#3 (encipher k l zeroLine) 0#64 ∧
        exec .backQueueEntry s = .next { s' with
          entry := { s.entry with work := some (.finalising x d f (.filling left (out ++ [s.back.nextId])) rest) }
          back := if left = [] then b else b.await .liveFill })


/-! ## Walks and waiting lookups -/

/-- The end of a walk (R57, R58, R60, R61, R68), at its burst's end clock (R136; log entry 49): it leaves the Walk List and
releases the waiting transactions in their order. Its page is inserted exactly when the descriptor is usable, the walk
unstale and its domain OPEN: a DATA page without a lock request into its set (R54), any other into a Fixed Buffer victim,
locked as the walk asks and used (R55), unless all 16 are locked, when BUFFER-SKIP is raised (R56). A lock request whose
answer is awaited is answered ABSENT, BUSY, STATE or ACCEPTED. The waiters take the result in the order they joined, each
answered CLOSED where the re-check refuses it (R90), ABSENT without a usable descriptor, and else served, refused or handed
over as the class check gives (R88): its request is in the queue or waits, in that order (R131; log entry 48), or its answer
is decided and a refusal reported. Nothing else enters the queue, no other flag is raised and no other slot changes, nor
domains, seeds, memory, monitor, cabinet or map work. -/
def Obligations.WalkCompletes : Prop :=
  ∀ (s : State) (x : Burst) (w : Walk) (k : LineKey) (page : Option Page), PulseTaken s → live s = true →
    HeadRead x .walk s → walkAwaiting x.req.id s = some w → mapKey s = some k →
    (∀ y ∈ s.front.slots, y.txn.tag ∈ w.waiters → y.region = some .key ∧ y.keyLost = false) →
    page = (Desc.ofBits (lineDescs (decipher k x.req.line (s.mem.readLine x.req.line)))[descIndex w.fpn]).page
      w.dom w.fpn (domEpoch s w.dom) →
    ∃ (u : State) (more : List BackReq) (b v : State) (skip : Bool), exec .walkCompletion s = .next u ∧ BurstTaken x s b ∧
      WaitersServed page w.waiters { b with xlat := { s.xlat with
        walks := s.xlat.walks.filter fun v => !(v.dom == w.dom && v.fpn == w.fpn)
        waiting := s.xlat.waiting.map fun v => { v with released := true } } } v ∧
      (skip = true ↔ ∃ p, page = some p ∧ w.stale = false ∧ domState s w.dom = .opened ∧
        (w.lock = true ∨ p.cls = .key) ∧ AllLocked s.xlat) ∧
      u = { v with
        xlat := { v.xlat with fixed := u.xlat.fixed, sets := u.xlat.sets }
        ev := { v.ev with flags := v.ev.flags ||| (if skip then Flag.bufferSkip.mark else 0#11) }
        link := { v.link with slot := u.link.slot } } ∧
      u = { s with
        front := { s.front with slots := u.front.slots }
        xlat := u.xlat
        entry := { s.entry with waiting := u.entry.waiting }
        back := { s.back with
          bursts := s.back.bursts.tail, clock := max s.back.clock x.finish, ranks := u.back.ranks
          queue := s.back.queue ++ more, waiting := u.back.waiting, nextId := s.back.nextId + more.length }
        ev := u.ev
        link := { s.link with slot := u.link.slot } } ∧
      TimersOnly s u ∧
      u.xlat.walks = s.xlat.walks.filter (fun v => !(v.dom == w.dom && v.fpn == w.fpn)) ∧
      u.xlat.waiting = s.xlat.waiting.map (fun v => { v with released := true }) ∧
      (page = none ∨ w.stale = true ∨ domState s w.dom ≠ .opened →
        u.xlat.fixed = s.xlat.fixed ∧ u.xlat.sets = s.xlat.sets) ∧
      (∀ p, page = some p → w.stale = false → domState s w.dom = .opened → w.lock = false → p.cls ≠ .key →
        u.xlat.fixed = s.xlat.fixed ∧ u.xlat.sets = (s.xlat.onSet (setIndex w.dom w.fpn) (SetRow.with p)).sets) ∧
      (∀ p, page = some p → w.stale = false → domState s w.dom = .opened → w.lock = true ∨ p.cls = .key →
        u.xlat.sets = s.xlat.sets ∧
        (AllLocked s.xlat → u.xlat.fixed = s.xlat.fixed ∧ u.ev.flags &&& Flag.bufferSkip.mark = Flag.bufferSkip.mark) ∧
        (¬AllLocked s.xlat → ∃ i, TakesVictim i { held := { valid := true, fields := p }, lock := w.lock, used := true }
          s.xlat u.xlat)) ∧
      u.link.slot = (if w.lock = true ∧ s.link.slot = .waiting then
        .ready (match page with
          | none => .absent
          | some _ => if w.stale = true then .busy else if domState s w.dom = .opened then .accepted else .state) []
        else s.link.slot) ∧
      u.entry.waiting = s.entry.waiting ++ (match page with
        | none => []
        | some p => w.waiters.filterMap fun tag => (findSlot s tag).bind fun y =>
            if admits (domState s y.txn.dom) y.txn.dir = true ∧
              classOutcome (domState s y.txn.dom) y.txn p = .handed then some (.component tag p.bpn p.life) else none) ∧
      (∀ tag, tag ∉ w.waiters → findSlot u tag = findSlot s tag) ∧
      ∀ tag ∈ w.waiters, ∀ y, findSlot s tag = some y → ∃ ph, findSlot u tag = some { y with phase := ph } ∧
        (admits (domState s y.txn.dom) y.txn.dir = false → ph = .responding .closed zeroLine) ∧
        (admits (domState s y.txn.dom) y.txn.dir = true →
          (page = none → ph = .responding .absent zeroLine) ∧
          ∀ p, page = some p →
            match classOutcome (domState s y.txn.dom) y.txn p with
            | .refused kind _ => ph = .responding kind.status zeroLine
            | .handed => ph = .entryWait
            | .served => ∀ l, l = keyBackLine s.seeds.pab p.bpn (keyPageIndex y.txn.line) →
              (y.txn.dir = .read ∨ y.txn.enables ≠ 0#64 ∧ y.txn.enables ≠ allMarks →
                (ph = .readWait l ∧ .front tag ∈ u.back.waiting) ∨ ∃ q ∈ more, ph = .readOut l q.id ∧
                  q = newRequest q.id false l .front (if y.txn.dir = .read then y.txn.beat else 0#3) zeroLine 0#64) ∧
              (y.txn.dir = .write → y.txn.enables = 0#64 → ph = .responding .done zeroLine) ∧
              (∀ key, y.txn.dir = .write → y.txn.enables = allMarks → lineKey s y.txn.dom = some key →
                (ph = .writeWait l y.txn.data ∧ .front tag ∈ u.back.waiting) ∨
                  (ph = .responding .done zeroLine ∧ ∃ q ∈ more,
                    q = newRequest q.id true l .front 0#3 (encipher key l y.txn.data) 0#64)))

/-- The first released transaction repeats its lookup (R58, R90). Refused by the re-check it is answered CLOSED. On a hit
it goes on with the page found, whose used or recency mark is set, as the class check gives (R52, R88). On a miss, with no
walk for its pair and fewer than four listed it starts one (R57, R59); with an unstale walk for its pair it joins as the
last waiter; and where it must wait again, it keeps its place. -/
def Obligations.WaitingLookupRepeats : Prop :=
  ∀ (s gone : State) (w : WalkWaiting) (x : Slot) (d : DomId) (f : Fpn), PulseTaken s → live s = true → SlotLaw s →
    s.xlat.waiting.find? (fun v => v.released) = some w → findSlot s w.tag = some x → x.region = some .key →
    x.keyLost = false → d = x.txn.dom → f = keyFpn x.txn.line →
    gone = { s with xlat := { s.xlat with waiting := s.xlat.waiting.erase w } } →
    (admits (domState s d) x.txn.dir = false →
      exec .waitingLookupRepeat s = .next (gone.refused x.txn .key .closed .noReason)) ∧
    (admits (domState s d) x.txn.dir = true →
      (∀ p t', Finds d f gone.xlat p t' →
        ∃ u, exec .waitingLookupRepeat s = .next u ∧ GoesOn x.txn p { gone with xlat := t' } u) ∧
      (Misses d f s.xlat →
        (s.xlat.walkFor d f = none → s.xlat.walks.length < 4 →
          exec .waitingLookupRepeat s = .next ((gone.moveSlot w.tag .key .walkWaiter).walkStarted d f [w.tag] false)) ∧
        (∀ v, s.xlat.walkFor d f = some v → v.stale = false →
          exec .waitingLookupRepeat s = .next { gone.moveSlot w.tag .key .walkWaiter with
            xlat := { gone.xlat with walks := joinedWalks d f w.tag s.xlat.walks } }) ∧
        ((∃ v, s.xlat.walkFor d f = some v ∧ v.stale = true) ∨ s.xlat.walkFor d f = none ∧ 4 ≤ s.xlat.walks.length →
          exec .waitingLookupRepeat s = .next { s with xlat := { s.xlat with
            waiting := s.xlat.waiting.map (fun v => if v = w then { v with released := false } else v) } })))

/-! ## The Map Unit -/

/-- Map work that waits goes on (R25, R32, R36, R44 to R47). A held map-window read resumes when no update holds its line,
with one line read of the map line from beat 0. A kernel merge that waits for the retire fills of its line stays while one
is listed, and then enqueues its line read. The oldest retire fill writes its next line: zeros enciphered under its domain's
line key with the key page line as tweak; what cannot enter begins to wait at its row (log entry 19). After line 63 it
leaves the Fill List, and without a key it leaves at once and writes nothing; the room it held is given, in order, to the
updates that wait for it, and so their line writes wait in that order (log entry 48). -/
def Obligations.MapWorkGoesOn : Prop :=
  (∀ (tag : Tag) (s : State) (x : Slot), live s = true → SlotLaw s → findSlot s tag = some x → x.phase = .mapReadHeld →
     ((∃ v ∈ s.maps.updates, v.line = mapWindowLine x.txn.line) → exec (.mapReadResume tag) s = .next s) ∧
     ((∀ v ∈ s.maps.updates, v.line ≠ mapWindowLine x.txn.line) → x.region = some .map →
       (mayEnter (.front tag) s = true → exec (.mapReadResume tag) s = .next {
         s.moveSlot tag .map (.readOut (mapBackLine s.front.pabCopy (mapWindowLine x.txn.line)) s.back.nextId) with
           back := s.back.push false (mapBackLine s.front.pabCopy (mapWindowLine x.txn.line)) .front 0#3 zeroLine 0#64 }) ∧
       (mayEnter (.front tag) s = false → exec (.mapReadResume tag) s = .next {
         s.moveSlot tag .map (.readWait (mapBackLine s.front.pabCopy (mapWindowLine x.txn.line))) with
           back := s.back.await (.front tag) }))) ∧
  (∀ (k : MapLine) (s : State) (u : UpdateEntry), live s = true → findUpdate s k = some u → u.state = .waiting →
     ((∃ f ∈ s.maps.fills, f.line = k) → exec (.mergeRelease k) s = .next s) ∧
     ((∀ f ∈ s.maps.fills, f.line ≠ k) →
       (mayEnter (.updateRead k) s = true → exec (.mergeRelease k) s = .next { s with
         maps := { s.maps with updates := s.maps.updates.map fun v =>
           if v.line = k then { v with state := .reading (some s.back.nextId) } else v }
         back := s.back.push false (mapBackLine s.seeds.pab k) .update 0#3 zeroLine 0#64 }) ∧
       (mayEnter (.updateRead k) s = false → exec (.mergeRelease k) s = .next { s with
         maps := { s.maps with updates := s.maps.updates.map fun v =>
           if v.line = k then { v with state := .reading none } else v }
         back := s.back.await (.updateRead k) }))) ∧
  (∀ (s : State) (x : Fill) (rest : List Fill), live s = true → s.maps.fills = x :: rest → RoomLaw s →
    (∀ key l sent, lineKey s x.dom = some key → l = keyBackLine s.seeds.pab x.bpn (BitVec.ofNat 6 x.next) →
      sent = (s.back.push true l .fill 0#3 (encipher key l zeroLine) 0#64).admitted .fill →
      (mayEnter .fill s = true → x.next < 63 → exec .fillLineWrite s = .next { s with
        maps := { s.maps with fills := { x with next := x.next + 1 } :: rest }, back := sent }) ∧
      (mayEnter .fill s = true → 63 ≤ x.next → ∃ u, exec .fillLineWrite s = .next u ∧
        RoomGiven { s with maps := { s.maps with fills := rest }, back := sent } u) ∧
      (mayEnter .fill s = false → exec .fillLineWrite s = .next { s with back := s.back.await .fill })) ∧
    (lineKey s x.dom = none → ∃ u, exec .fillLineWrite s = .next u ∧
      RoomGiven { s with maps := { s.maps with fills := rest }, back := s.back.admitted .fill } u))

/-- An update request is taken when fewer than eight entries are listed and none holds its line (R34), be it the first that
waits or behind others: a request whose line is held keeps no other back, and each line that is free and was asked for
before has one of the free entries kept for it, counted from the arrival of the request. Behind an older request for its own
line it is taken only where the two waited together as that line freed, which the model notes until one of them is taken or
the list is full (log entry 47). The request enters the Update List, and the walks in flight on its line become stale (R35).
A kernel merge whose line has a retire fill waits; otherwise, and for a part update always, the entry is in READING, and its
line read from beat 0 enters, or waits to. While the line is held, the request has no turn, or no entry is free for it,
nothing is taken. -/
def Obligations.UpdateIsTaken : Prop :=
  ∀ (s : State) (r : UpdateRequest) (before after : List UpdateRequest) (pick : UpdatePick) (earlier : List MapLine),
    live s = true → s.maps.requests = before ++ r :: after →
    (pick = match r with | .kernel tag _ => .kernel tag | .part _ => .part) →
    (∀ q ∈ before, pick ≠ match q with | .kernel tag _ => .kernel tag | .part _ => .part) →
    earlier.Nodup → (∀ k, k ∈ earlier ↔ k ≠ r.line ∧ (∃ q ∈ before, q.line = k) ∧ ∀ v ∈ s.maps.updates, v.line ≠ k) →
    (8 ≤ s.maps.updates.length + earlier.length ∨ (∃ v ∈ s.maps.updates, v.line = r.line) ∨
        (∃ q ∈ before, q.line = r.line) ∧ r ∉ s.maps.together →
      exec (.updateTaken pick) s = .next s) ∧
    (s.maps.updates.length + earlier.length < 8 → (∀ v ∈ s.maps.updates, v.line ≠ r.line) →
      (∀ q ∈ before, q.line ≠ r.line) ∨ r ∈ s.maps.together →
      ∀ (base left : State) (entry : UpdateState → MapUnit),
        (base = match r with | .kernel tag _ => setPhase tag .updateListed s | .part _ => s) →
        left = { base with xlat := { s.xlat with walks := s.xlat.walks.map (Walk.staleOn r.line) } } →
        (entry = fun st => { s.maps with
          requests := before ++ after
          together := if s.maps.updates.length < 7 then s.maps.together.filter (fun q => q.line ≠ r.line) else []
          updates := s.maps.updates ++ [newUpdate r.line
            (match r with | .kernel tag _ => .kernel tag | .part p => .part p) st] }) →
        (∀ tag k, r = .kernel tag k → (∃ f ∈ s.maps.fills, f.line = k) →
          exec (.updateTaken pick) s = .next { left with maps := entry .waiting }) ∧
        ((∃ p, r = .part p) ∨ (∀ f ∈ s.maps.fills, f.line ≠ r.line) →
          (mayEnter (.updateRead r.line) s = true → exec (.updateTaken pick) s = .next { left with
            maps := entry (.reading (some s.back.nextId))
            back := s.back.push false (mapBackLine s.seeds.pab r.line) .update 0#3 zeroLine 0#64 }) ∧
          (mayEnter (.updateRead r.line) s = false → exec (.updateTaken pick) s = .next { left with
            maps := entry (.reading none), back := s.back.await (.updateRead r.line) })))

/-- The line read of an update arrives (R36), at its burst's end clock (R136; log entry 49). A kernel merge forms the result
of R37 to R40, spelled out in KernelKeepsEntry, under the current epoch of the line's domain. A part update whose
descriptors all pass R42's check (usable, KEY, the recorded BPN, an expected lifecycle) forms the line with its changes
applied in turn: the lifecycle, and the first custodian where one is set; every other field and descriptor is kept. A change
to RETIRED starts a fill of its page. The entry is then in WRITING: without a fill its line write waits to enter; with fills
it takes its turn for room, which is given in order as far as it goes (their line writes then wait in that order, log entry
48). Nothing is written to memory. A part update with a descriptor that fails leaves the list without a line write, and the
failure is reported to the Entry Unit (R42). A domain's key plays no part here: what an ERASE before the taking of a first
component write makes of its line is said in UpdateLineIsWritten (log entry 31). -/
def Obligations.UpdateLineArrives : Prop :=
  ([Lifecycle.empty, .first, .half, .second, .live, .retired].map Lifecycle.code = [0#3, 1#3, 2#3, 3#3, 4#3, 5#3]) ∧
  (∀ (stored : Line) (epoch : Epoch) (c : PartChange),
    passes stored epoch c = true ↔ ChangePasses c epoch (Desc.ofBits (lineDescs stored)[descIndex c.fpn])) ∧
  (∀ (stored : Line) (c : PartChange) (rest : List PartChange),
    formPart stored [] = stored ∧ formPart stored (c :: rest) = formPart (formPart stored [c]) rest ∧
    ∀ i : Fin 8, Desc.ofBits (lineDescs (formPart stored [c]))[i] =
      if i = descIndex c.fpn then (Desc.ofBits (lineDescs stored)[i]).changed c else Desc.ofBits (lineDescs stored)[i]) ∧
  (∀ p : PartUpdate, partFills p = (p.changes.filter fun c => c.life = .retired).map fun c =>
    { dom := c.dom, fpn := c.fpn, bpn := c.bpn, line := p.line, next := 0 }) ∧
  ∀ (s : State) (x : Burst) (u : UpdateEntry) (key : LineKey) (stored : Line), live s = true → HeadRead x .update s →
    updateAwaiting x.req.id s = some u → mapKey s = some key → SlotLaw s → RoomLaw s →
    (∀ c y, s.entry.work = some (.component c) → findSlot s c.tag = some y → y.region = some .key) →
    stored = decipher key x.req.line (s.mem.readLine x.req.line) →
    (∀ tag y result fills held removes, u.origin = .kernel tag → findSlot s tag = some y →
      (result, fills, held, removes) =
        formMerge u.line stored y.txn.data y.txn.enables (domEpoch s (mapLineDomain u.line)) →
      ∃ m v, BurstTaken x s m ∧ exec .updateLineReadArrival s = .next v ∧
        EntersWriting u.line stored result fills held removes m v) ∧
    (∀ p, u.origin = .part p → (∀ c ∈ p.changes, passes stored (domEpoch s (mapLineDomain u.line)) c = true) →
      ∃ m v, BurstTaken x s m ∧ exec .updateLineReadArrival s = .next v ∧
        EntersWriting u.line stored (formPart stored p.changes) (partFills p) false [] m v) ∧
    (∀ p failed, u.origin = .part p →
      failed = p.changes.filter (fun c => !passes stored (domEpoch s (mapLineDomain u.line)) c) → failed ≠ [] →
      ∃ m v, BurstTaken x s m ∧ exec .updateLineReadArrival s = .next v ∧
        Failed (failed.map fun c => (c.dom, c.fpn)) { m with maps := s.maps.left u.line } v)

/-- An update's line write enters (R36): the enciphered result is a request of the Back Queue, the entry leaves the Update
List, and its fills join the Fill List in order. A kernel merge's changed pairs then leave the buffers, with LOCK-LOST for a
locked one (R41); the Entry List entries of all pages it retires go without an event, and then the entry operation on one is
cut short and goes on with what is left (R38, R108, R110, R114), but that a component write which still awaits its part
update is refused at that update's report (log entry 28); the merge is answered DONE, and a held one reported HELD (R40;
after the report of such a write, log entry 45). A part update writes the new lifecycles into the buffers where the pages
stand, locks and marks kept, and is reported complete to the Entry Unit, whose operation goes on (R43, R105, R107, R109 to
R111, R113); a component line whose domain has no key by then is refused CLOSED, and the entry its write has added goes,
while the descriptor stays FIRST as R42 has it (R12, R83; log entry 31). -/
def Obligations.UpdateLineIsWritten : Prop :=
  ∀ (k : MapLine) (s sent : State) (u : UpdateEntry) (key : LineKey), live s = true → SlotLaw s →
    findUpdate s k = some u → u.state = .writing true → mapKey s = some key → mayEnter (.updateWrite k) s = true →
    sent = { s with
      maps := { s.maps.left k with fills := s.maps.fills ++ u.fills }
      back := (s.back.push true (mapBackLine s.seeds.pab k) .update 0#3
        (encipher key (mapBackLine s.seeds.pab k) u.result) 0#64).admitted (.updateWrite k) } →
    (∀ c y, s.entry.work = some (.component c) → findSlot s c.tag = some y → y.region = some .key) →
    (∀ (tag : Tag) (y : Slot) (hit : Page → Bool), u.origin = .kernel tag → findSlot s tag = some y → y.region = some .map →
      (hit = fun q => (changedPairs k u.stored u.result).contains (q.dom, q.fpn)) →
      ∃ m m' : State, m = { sent with
          xlat := { s.xlat with fixed := m.xlat.fixed, sets := m.xlat.sets }
          ev := { s.ev with flags := s.ev.flags ||| LockLostMark hit s } } ∧
        Demapped hit s m ∧
        Retired u.removes m m' ∧
        exec (.updateLineWrite k) s = .next { m'.moveSlot tag .map (.responding .done zeroLine) with
          ev := if u.held then m'.ev.take (txnReport y.txn .map .held .noReason) else m'.ev }) ∧
    (∀ p, u.origin = .part p → ∃ m v : State, m = { sent with xlat := { s.xlat with fixed := m.xlat.fixed, sets := m.xlat.sets } } ∧
        (∀ i : Fin 16, m.xlat.fixed[i] = { s.xlat.fixed[i] with
          held := p.changes.foldl (fun h c => h.lived c.dom c.fpn c.life) s.xlat.fixed[i].held }) ∧
        (∀ i : Fin 256, m.xlat.sets[i] = { s.xlat.sets[i] with
          way0 := p.changes.foldl (fun h c => h.lived c.dom c.fpn c.life) s.xlat.sets[i].way0
          way1 := p.changes.foldl (fun h c => h.lived c.dom c.fpn c.life) s.xlat.sets[i].way1 }) ∧
        exec (.updateLineWrite k) s = .next v ∧ Reported m v)

/-- The kernel's merge, descriptor by descriptor (R31, R37 to R40, R44): the line, the fills, the held mark and the removed
entries are those of the descriptors stored and proposed. A touched one that is unusable, of a DATA class, EMPTY or RETIRED
takes the proposed value with R39's forced fields (current epoch; EMPTY and custodian A for KEY; lifecycle 0 for DATA); one in
FIRST, HALF, SECOND or LIVE turns RETIRED, with a fill of its page and, but for LIVE, its Entry List entry removed, where that
is proposed, and else stays, which holds the change; an untouched one stays. So the kernel cannot take a page through entry
or give it to use (R38, R39): where a result holds a usable KEY descriptor in FIRST, HALF, SECOND or LIVE, the line read
held that descriptor as it stands but for the owner bits. -/
def Obligations.KernelKeepsEntry : Prop :=
  (∀ (k : MapLine) (stored data result : Line) (enables : Marks) (epoch : Epoch) (fills : List Fill) (held : Bool)
     (removes : List (DomId × Fpn)), formMerge k stored data enables epoch = (result, fills, held, removes) →
     ∃ n : Fin 8 → Desc, (∀ i, Proposed stored data enables i (n i)) ∧
       Merges k enables epoch (fun i => Desc.ofBits (lineDescs stored)[i]) n (fun i => Desc.ofBits (lineDescs result)[i])
         fills held removes) ∧
  ∀ (k : MapLine) (stored data : Line) (enables : Marks) (epoch : Epoch) (i : Fin 8) (p : Page),
    (Desc.ofBits (lineDescs (formMerge k stored data enables epoch).1)[i]).page 0#6 0#14 epoch = some p →
    p.cls = .key → p.life = .first ∨ p.life = .half ∨ p.life = .second ∨ p.life = .live →
    { Desc.ofBits (lineDescs (formMerge k stored data enables epoch).1)[i] with
        owner := (Desc.ofBits (lineDescs stored)[i]).owner } = Desc.ofBits (lineDescs stored)[i]

/-- Descriptors and map lines are read as they are written (R30, R203): fields and bits, and lines and their eight
descriptors, give one another back; and what a line key enciphers it deciphers (R75). -/
def Obligations.DescriptorsRoundTrip : Prop :=
  (∀ d : Desc, Desc.ofBits d.toBits = d) ∧ (∀ x : BitVec 64, (Desc.ofBits x).toBits = x) ∧
  (∀ v, lineDescs (descsLine v) = v) ∧ (∀ l, descsLine (lineDescs l) = l) ∧
  (∀ key t l, decipher key t (encipher key t l) = l) ∧ (∀ key t l, encipher key t (decipher key t l) = l)

/-- The address arithmetic of chapter 2. The Set Buffer index of a pair (R23) is (f mod 256) XOR (4 × rev6 d), rev6 d
being d's six bits in reverse order: one domain's page numbers modulo 256 give different indices, and two pairs share
one exactly when (f mod 256) XOR (f′ mod 256) is 4 × rev6 (d XOR d′). A back line divides one-to-one into rank (bit
16), row (bits 17 to 30), bank (bits 13 to 15 XOR row mod 8) and column in beats (bits 3 to 12), a multiple of 8; the
lines of a 4 KiB page lie in one row of one bank, in columns below 512 exactly when bit 12 is 0 (R24). A pair's
descriptor lies in map line (d × 16384 + f) ÷ 8 at index (d × 16384 + f) mod 8, and the eight pairs of a map line are
exactly the pairs whose descriptors lie in it, in the order of their indices (R19, R20). -/
def Obligations.AddressArithmetic : Prop :=
  (∀ (d d' : DomId) (f f' : Fpn),
     (∀ i : Fin 8, (setIndex d f).getLsbD i.val =
       (f.getLsbD i.val ^^ (decide (2 ≤ i.val) && d.getLsbD (7 - i.val)))) ∧
     (setIndex d f = setIndex d f' ↔ f.toNat % 256 = f'.toNat % 256) ∧
     (setIndex d f = setIndex d' f' ↔ f.setWidth 8 ^^^ f'.setWidth 8 = (d ^^^ d').reverse ++ 0#2)) ∧
  ((∀ b : BackLine, (dramPlace b).rank.val = b.toNat * 64 / 0x10000 % 2 ∧ (dramPlace b).row.toNat = b.toNat * 64 / 0x20000 ∧
     (dramPlace b).bank.val = b.toNat * 64 / 0x2000 % 8 ^^^ (dramPlace b).row.toNat % 8 ∧
     (dramPlace b).column = b.toNat * 64 / 8 % 1024 ∧ (dramPlace b).column % 8 = 0 ∧
     b.toNat * 64 / 0x2000 % 8 = (dramPlace b).bank.val ^^^ (dramPlace b).row.toNat % 8) ∧
   (∀ p : DramPlace, p.column % 8 = 0 → p.column < 1024 → ∃ b, dramPlace b = p ∧ ∀ b', dramPlace b' = p → b' = b) ∧
   (∀ b b' : BackLine, b.toNat * 64 / 4096 = b'.toNat * 64 / 4096 →
     (dramPlace b).rank = (dramPlace b').rank ∧ (dramPlace b).bank = (dramPlace b').bank ∧
     (dramPlace b).row = (dramPlace b').row ∧ ((dramPlace b).column < 512 ↔ b.toNat * 64 / 4096 % 2 = 0))) ∧
  (∀ (d : DomId) (f : Fpn) (k : MapLine),
     (mapLineOf d f).toNat = (d.toNat * 16384 + f.toNat) / 8 ∧ (descIndex f).val = (d.toNat * 16384 + f.toNat) % 8 ∧
     ((d, f) ∈ mapLinePairs k ↔ mapLineOf d f = k) ∧ (mapLinePairs (mapLineOf d f))[(descIndex f).val]? = some (d, f))



/-! ## Run pulses, windows and key entry -/

/-- A run pulse on mains (R27, R85, R98): the counter returns to 0, every OPEN domain's lease and every OPEN window's
remaining count falls by 1, and nothing else is counted. A count of 1 is marked as ending here; LEASE_EXPIRY and
WINDOW_LAPSE take its end, and each command that could tell, the next pulse among them, comes after all these ends
(R85, R86; log entry 9). -/
def Obligations.RunPulseCounts : Prop :=
  (∀ s : State, ∃ u, Runs pulseRows s u ∧ PulseTaken u) ∧
  (∀ (c : Instr) (s u : State), awaitsPulse c = true → Runs pulseRows s u → exec c s = exec c u) ∧
  ∀ s : State, live s = true → PulseTaken s → ∃ u, exec .runPulse s = .next u ∧
    u = { s with
      run := { counter := 0, compare := s.run.compare }
      doms := u.doms
      entry := { s.entry with windowA := u.entry.windowA, windowB := u.entry.windowB } } ∧
    (∀ d : Fin 64,
      (s.doms[d].state ≠ .opened → u.doms[d] = s.doms[d]) ∧
      (s.doms[d].state = .opened → 2 ≤ s.doms[d].lease.toNat →
        u.doms[d] = { s.doms[d] with lease := u.doms[d].lease } ∧ u.doms[d].lease.toNat = s.doms[d].lease.toNat - 1) ∧
      (s.doms[d].state = .opened → s.doms[d].lease.toNat ≤ 1 → u.doms[d] = { s.doms[d] with ending := true })) ∧
    (∀ x : Custodian,
      ((s.entry.window x).state ≠ .opened → u.entry.window x = s.entry.window x) ∧
      ((s.entry.window x).state = .opened → 2 ≤ (s.entry.window x).remaining.toNat →
        u.entry.window x = { s.entry.window x with remaining := (u.entry.window x).remaining } ∧
        (u.entry.window x).remaining.toNat = (s.entry.window x).remaining.toNat - 1) ∧
      ((s.entry.window x).state = .opened → (s.entry.window x).remaining.toNat ≤ 1 →
        u.entry.window x = { s.entry.window x with ending := true }))

/-- A lease whose last pulse has come ends (R85; log entry 9): a staged extension becomes the lease and RUN-EXTENDED
is raised; without one the domain is CLOSED with lease 0, its mark joins the expired set, LEASE-EXPIRED is raised, and
no buffer holds a page of it, the pages of other domains staying. -/
def Obligations.LeaseEnds : Prop :=
  ∀ (d : DomId) (s : State), live s = true → s.doms[domIx d].state = .opened → s.doms[domIx d].ending = true →
    (∀ n, s.doms[domIx d].staged = some n →
      ∃ u, exec (.leaseExpiry d) s = .next u ∧
        u = { s with doms := u.doms, ev := { s.ev with flags := s.ev.flags ||| Flag.runExtended.mark } } ∧
        u.doms[domIx d] = { s.doms[domIx d] with lease := n, staged := none, ending := false } ∧
        ∀ d', d' ≠ domIx d → u.doms[d'] = s.doms[d']) ∧
    (s.doms[domIx d].staged = none →
      ∃ u, exec (.leaseExpiry d) s = .next u ∧
        u = { s with
          doms := u.doms
          xlat := { s.xlat with fixed := u.xlat.fixed, sets := u.xlat.sets }
          ev := { s.ev with
            expired := s.ev.expired ||| (1#64 <<< d.toNat)
            flags := s.ev.flags ||| Flag.leaseExpired.mark |||
              LockLostMark (fun p => p.dom == d) s } } ∧
        u.doms[domIx d] = { s.doms[domIx d] with state := .closed, lease := 0#16, ending := false } ∧
        (∀ d', d' ≠ domIx d → u.doms[d'] = s.doms[d']) ∧ Demapped (fun p => p.dom == d) s u)

/-- The custodian windows (R94, R97, R98, R99). A switch-on opens a SHUT window with the entry limit when the cabinet
is READY and an entry domain is set, and changes no other window. A switch-off shuts its window, and requests a
finalisation when it was OPEN. A window whose last pulse has come (log entry 9) is LAPSED with its finalisation
requested; a request that waits already is not made twice (R102). -/
def Obligations.WindowEvents : Prop :=
  ∀ (x : Custodian) (s : State),
    (PulseTaken s → (s.entry.switch x).on = false →
      (live s = true → (s.entry.window x).state = .shut → s.cab.cabinet = .ready → s.entry.domain ≠ none →
        exec (.registeredSwitchOn x) s = .next { s with
          entry := (s.entry.register x true).onWindow x fun _ =>
            { state := .opened, remaining := s.entry.limit, ending := false } }) ∧
      (live s = false ∨ (s.entry.window x).state ≠ .shut ∨ s.cab.cabinet ≠ .ready ∨ s.entry.domain = none →
        exec (.registeredSwitchOn x) s = .next { s with entry := s.entry.register x true })) ∧
    (PulseTaken s → (s.entry.switch x).on = true →
      exec (.registeredSwitchOff x) s = .next { s with
        entry := { (s.entry.register x false).onWindow x (fun _ => { state := .shut, remaining := 0#16, ending := false }) with
          waiting := if (s.entry.window x).state = .opened ∧ EntryOp.finalise x ∉ s.entry.waiting then
            s.entry.waiting ++ [.finalise x] else s.entry.waiting } }) ∧
    (live s = true → (s.entry.window x).state = .opened → (s.entry.window x).ending = true →
      exec (.windowLapse x) s = .next { s with
        entry := { s.entry.onWindow x (fun _ => { state := .lapsed, remaining := 0#16, ending := false }) with
          waiting := if EntryOp.finalise x ∈ s.entry.waiting then s.entry.waiting
            else s.entry.waiting ++ [.finalise x] } })

/-- A component write that its judgement refuses (R103, R104) is answered DENIED with the reason of the first step
that fails; it stores nothing and changes no entry. -/
def Obligations.ComponentRefused : Prop :=
  ∀ (s : State) (tag : Tag) (bpn : Bpn) (life : Lifecycle) (rest : List EntryOp) (y : Slot),
    PulseTaken s → live s = true → SlotLaw s → s.entry.work = none → s.entry.waiting = .component tag bpn life :: rest →
    findSlot s tag = some y → y.region = some .key →
    ∀ r, ComponentRefusal s.entry y.txn life r → exec .componentWrite s =
      .next ({ s with entry := { s.entry with waiting := rest } }.refused y.txn .key .denied r)

/-- Component writes that pass their judgement (R104 to R107), by the one custodian whose window is OPEN: the first
write of an EMPTY page adds an entry and offers the update to FIRST; the second custodian's first write to a HALF page
makes it SECOND and offers that update; the first custodian's further lines of a FIRST page are enciphered and enter
the Back Queue, joining the first-line set and answered DONE; the second custodian's further lines of a SECOND page
are read first. A request that cannot enter waits. The judgement asks for no key: what an ERASE before the taking makes of a
first write is said in UpdateLineArrives and UpdateLineIsWritten (R42, R83, R105; log entry 31). -/
def Obligations.ComponentBegins : Prop :=
  ∀ (s taken : State) (tag : Tag) (bpn : Bpn) (life : Lifecycle) (rest : List EntryOp) (y : Slot) (x : Custodian)
    (d : DomId) (f : Fpn) (l : PageLine), PulseTaken s → live s = true → SlotLaw s → s.entry.work = none →
    s.entry.waiting = .component tag bpn life :: rest → findSlot s tag = some y → y.region = some .key →
    y.txn.enables = allMarks → s.entry.domain = some d → SoleOpen x s.entry → d = y.txn.dom → f = keyFpn y.txn.line →
    l = keyPageIndex y.txn.line →
    taken = { s.moveSlot tag .key .entryTaken with entry := { s.entry with waiting := rest } } →
    (findEntry s d f = none → life = .empty → s.entry.list.length < 32 →
      exec .componentWrite s = .next { taken with
        entry := { s.entry with
          waiting := rest
          list := s.entry.list ++ [{ dom := d, fpn := f, bpn := bpn, phase := .first, first := x, firstSet := 0#64
                                     combinedSet := 0#64 }]
          work := some (.component { tag := tag, dom := d, fpn := f, line := l, bpn := bpn, combines := false
                                     stage := .firstUpdate }) }
        maps := { s.maps with requests := s.maps.requests ++ [.part (OneChange d f bpn [.empty] .first (some x))] } }) ∧
    (∀ e, findEntry s d f = some e → e.phase = .half → e.first ≠ x → e.firstSet.getLsbD l.toNat = true →
      exec .componentWrite s = .next { taken with
        entry := { s.entry with
          waiting := rest
          list := s.entry.list.map fun r => if r.dom = d ∧ r.fpn = f then { r with phase := .second } else r
          work := some (.component { tag := tag, dom := d, fpn := f, line := l, bpn := e.bpn, combines := true
                                     stage := .combineUpdate }) }
        maps := { s.maps with requests := s.maps.requests ++ [.part (OneChange d f e.bpn [.half] .second none)] } }) ∧
    (∀ e, findEntry s d f = some e → e.phase = .first → e.first = x →
      ∃ u, exec .componentWrite s = .next u ∧ EntryOffers { tag := tag, dom := d, fpn := f, line := l, bpn := e.bpn
                                                            combines := false, stage := .writing y.txn.data } taken u) ∧
    (∀ e, findEntry s d f = some e → e.phase = .second → e.first ≠ x → e.firstSet.getLsbD l.toNat = true →
      e.combinedSet.getLsbD l.toNat = false →
      ∃ u, exec .componentWrite s = .next u ∧ EntryOffers { tag := tag, dom := d, fpn := f, line := l, bpn := e.bpn
                                                            combines := true, stage := .reading none } taken u)

/-- The combining read's burst arrives (R107), at its end clock (R136; log entry 49): the line is deciphered under its
domain's line key, each byte replaced by its exclusive-or with the write's, and the result, enciphered again, enters the
Back Queue or waits to; once it enters, its line joins the combined-line set, the write is answered DONE, and the operation
ends. With no key left for its domain the write is refused CLOSED (R83; log entry 31). Nothing is written to memory in this
step. -/
def Obligations.CombiningBurst : Prop :=
  ∀ (s : State) (x : Burst) (c : CompOp) (y : Slot), live s = true → SlotLaw s → HeadRead x .entry s →
    s.entry.work = some (.component c) → c.stage = .reading (some x.req.id) → findSlot s c.tag = some y →
    y.region = some .key →
    (∀ key, lineKey s c.dom = some key → ∃ m u data, BurstTaken x s m ∧ exec .combiningReadBurst s = .next u ∧
      (∀ i : Fin 64, data[i] = (decipher key x.req.line (s.mem.readLine x.req.line))[i] ^^^ y.txn.data[i]) ∧
      EntryOffers { c with stage := .writing data } m u) ∧
    (lineKey s c.dom = none → ∃ m, BurstTaken x s m ∧ exec .combiningReadBurst s =
      .next { m.refused y.txn .key .closed .noReason with entry := { s.entry with work := none } })

/-- A finalisation for a custodian (R109), and the deferred one of RESUME, which is for both (R115), take the listed pages
in order: the first affected one has its turn, and with none WINDOW-CLOSED is raised at once (R112). An entry in FIRST
goes to HALF; a complete one in SECOND whose first component has all 64 lines is offered its LIVE update, and one with
lines left waits for its zero fills, which enter one by one (R110; log entry 20); an incomplete one is offered its RETIRED
update (R111). One in HALF keeps it, and is affected by the deferred finalisation alone (log entry 36). -/
def Obligations.FinalisationBegins : Prop :=
  ∀ (x : Option Custodian) (c : Instr) (op : EntryOp) (s : State) (rest : List EntryOp),
    (match x with
      | some x => c = .finalisation ∧ op = .finalise x
      | none => c = .deferredFinalisation ∧ op = .deferred) →
    PulseTaken s → live s = true → s.entry.work = none → s.entry.waiting = op :: rest →
    ∃ u, exec c s = .next u ∧
      FinNext x (s.entry.list.map fun e => (e.dom, e.fpn)) { s with entry := { s.entry with waiting := rest } } u

/-- A LIVE zero fill whose every line has entered and been reported complete offers the update to LIVE, which expects
SECOND; while a line is still to enter or a completion is awaited, nothing is offered (R110). ABANDON-ENTRY, carried
out, leaves the Entry List empty, raises ENTRY-ABANDONED if it held an entry, and offers the first entry's update to
RETIRED, the others' to follow one at a time in list order (R113). -/
def Obligations.LiveFillAndAbandonment : Prop :=
  (∀ (s : State) (x : Option Custodian) (d : DomId) (f : Fpn) (left : List PageLine) (out : List Nat)
     (rest : List (DomId × Fpn)) (e : EntryRec), live s = true →
     s.entry.work = some (.finalising x d f (.filling left out) rest) → findEntry s d f = some e →
     (left = [] → out = [] → exec .liveZeroFillComplete s = .next { s with
       entry := { s.entry with work := some (.finalising x d f .live rest) }
       maps := { s.maps with requests := s.maps.requests ++ [.part (OneChange e.dom e.fpn e.bpn [.second] .live none)] } }) ∧
     (left ≠ [] ∨ out ≠ [] → exec .liveZeroFillComplete s = .next s)) ∧
  (∀ (s : State) (rest : List EntryOp), PulseTaken s → live s = true → s.entry.work = none →
     s.entry.waiting = .abandon :: rest →
     (s.entry.list = [] → exec .abandonment s = .next { s with entry := { s.entry with waiting := rest } }) ∧
     (∀ e more, s.entry.list = e :: more → exec .abandonment s = .next { s with
       entry := { s.entry with
         waiting := rest, list := []
         work := some (.abandoning (more.map fun r =>
           OneChange r.dom r.fpn r.bpn [.first, .half, .second] .retired none)) }
       maps := { s.maps with requests := s.maps.requests ++
         [.part (OneChange e.dom e.fpn e.bpn [.first, .half, .second] .retired none)] }
       ev := { s.ev with flags := s.ev.flags ||| Flag.entryAbandoned.mark } }))



/-! ## The Back Controller -/

/-- A selection (R133, R134; it is made once nothing that its clock has made due is left, log entry 8): with START-UP over,
fewer than four in service and some request eligible, one eligible request goes to the end of the service list: the oldest
urgent one, else the oldest row hit, else the oldest. Eligible is a WAITING request that is the oldest for its line, whose
rank is NORMAL, whose bank no request in service has with another row and no urgent request that is not eligible has (the
last read by log entry 37). With four in service, or none eligible, none is selected. Every older WAITING request is passed
over once (log entry 21), and urgent at 16; younger ones are left as they were. -/
def Obligations.SelectionChooses : Prop :=
  ∀ s : State, live s = true → s.back.startUp = none → s.back.timely s.back.clock = true → QueueLaw s →
    (4 ≤ s.back.service.length ∨ (∀ q ∈ s.back.queue, ¬MayBeSelected q s.back) → exec .selection s = .next s) ∧
    (s.back.service.length < 4 → (∃ q ∈ s.back.queue, MayBeSelected q s.back) →
    ∃ older q younger, s.back.queue = older ++ q :: younger ∧ MayBeSelected q s.back ∧
      (q.urgent = true ∧ (∀ x ∈ older, ¬(x.urgent = true ∧ MayBeSelected x s.back)) ∨
        (∀ x ∈ s.back.queue, MayBeSelected x s.back → x.urgent = false) ∧
          (HitsRow q s.back ∧ (∀ x ∈ older, ¬(HitsRow x s.back ∧ MayBeSelected x s.back)) ∨
            (∀ x ∈ s.back.queue, MayBeSelected x s.back → ¬HitsRow x s.back) ∧
              ∀ x ∈ older, ¬MayBeSelected x s.back)) ∧
      exec .selection s = .next { s with back := { s.back with
        queue := older.map (fun x => if x.inService then x else
            { x with passOver := min (x.passOver + 1) 16, urgent := x.urgent || decide (16 ≤ x.passOver + 1) }) ++
          { q with inService := true } :: younger
        service := s.back.service ++ [q.id] } })

/-- The command path (R125). At clock `t` it carries a command just when the part has power, START-UP is over, `t` is not
past, nothing that `t` makes due is left (log entry 8), and no command has been issued at `t`; it is then the one that the
first of R125's five places with any takes: a FORCED rank's refresh, the first request's read or write command, what a
request in service needs, an idle rank's refresh, an idle close (R124). A bank with an automatic precharge to come takes
neither a precharge command nor a read or write command (log entry 23), and write bursts still on their way count for tWR and
tWTR (log entry 24). -/
def Obligations.CommandPathOrder : Prop :=
  ∀ (t : Nat) (s : State) (x : PathCmd), issued t s = some x ↔
    live s = true ∧ s.back.startUp = none ∧ s.back.clock ≤ t ∧ (s.back.advance t).timely t = true ∧
      (∀ c, s.back.lastCommand = some c → c < t) ∧
      ∃ n, PlaceTakes t s.back x n ∧ ∀ m, m < n → ∀ y, ¬PlaceTakes t s.back y m

/-- An activation that the command path carries at clock `t` (log entry 8) keeps R121: the bank is IDLE, tRP has passed
since its last precharge and tRRD since the rank's last activation, no fifth activation comes within tFAW, and the rank is
NORMAL. It opens the row a request in service needs, and its clock joins the rank's history of four. A precharge keeps R123
(log entry 24): the bank is ACTIVE, tRAS has passed since its last activation, tRTP since its last read and tWR since its
last write burst; it leaves the bank IDLE with its last precharge at `t`. No other bank changes, and of the rank records
only that history and the timers, which count (R119, R126). Where R125 gives the path at `t` to no such command, the row
leaves the state as it stands (log entry 5). -/
def Obligations.ActivationAndPrechargeRule : Prop :=
  (∀ (t : Nat) (s : State),
    ((∀ r i row, issued t s ≠ some (.activate r i row)) → exec (.activation t) s = .next s) ∧
    ((∀ r i, issued t s ≠ some (.precharge r i)) → exec (.precharge t) s = .next s)) ∧
  (∀ (t : Nat) (s : State) (r : Fin 2) (i : Fin 8) (row : BitVec 14), issued t s = some (.activate r i row) →
    (s.back.bank r i).row = none ∧ (∀ c, (s.back.bank r i).lastPre = some c → c + s.back.timing.tRP ≤ t) ∧
    (∀ c, s.back.ranks[r].history.getLast? = some c → c + s.back.timing.tRRD ≤ t) ∧
    (∀ c, s.back.ranks[r].history.head? = some c → 4 ≤ s.back.ranks[r].history.length →
      c + s.back.timing.tFAW ≤ t) ∧
    s.back.ranks[r].state = .normal ∧
    (∃ q ∈ s.back.queue, q.id ∈ s.back.service ∧ q.place.rank = r ∧ q.place.bank = i ∧ q.place.row = row) ∧
    ∃ u, exec (.activation t) s = .next u ∧
      u = { s with back := { s.back with
        banks := u.back.banks, ranks := u.back.ranks, clock := t, lastCommand := some t } } ∧
      u.back.bank r i = { s.back.bank r i with row := some row, lastAct := some t } ∧
      (∀ r' i', (r', i') ≠ (r, i) → u.back.bank r' i' = s.back.bank r' i') ∧
      (∀ r' : Fin 2, u.back.ranks[r'] = { s.back.ranks[r'] with
        history := u.back.ranks[r'].history, timer := s.back.ranks[r'].timer + (t - s.back.clock) }) ∧
      (∀ r' : Fin 2, r' ≠ r → u.back.ranks[r'].history = s.back.ranks[r'].history) ∧
      (s.back.ranks[r].history.length ≤ 4 → u.back.ranks[r].history =
        (if s.back.ranks[r].history.length = 4 then s.back.ranks[r].history.tail else s.back.ranks[r].history) ++ [t])) ∧
  ∀ (t : Nat) (s : State) (r : Fin 2) (i : Fin 8), issued t s = some (.precharge r i) →
    (s.back.bank r i).row ≠ none ∧ (∀ c, (s.back.bank r i).lastAct = some c → c + s.back.timing.tRAS ≤ t) ∧
    (∀ c, (s.back.bank r i).lastRead = some c → c + s.back.timing.tRTP ≤ t) ∧
    (∀ c, s.back.writeEnd r i = some c → c + s.back.timing.tWR ≤ t) ∧
    ∃ u, exec (.precharge t) s = .next u ∧
      u = { s with back := { s.back with
        banks := u.back.banks, ranks := u.back.ranks, clock := t, lastCommand := some t } } ∧
      u.back.bank r i = { s.back.bank r i with row := none, lastPre := some t } ∧
      (∀ r' i', (r', i') ≠ (r, i) → u.back.bank r' i' = s.back.bank r' i') ∧
      ∀ r' : Fin 2, u.back.ranks[r'] = { s.back.ranks[r'] with
        timer := s.back.ranks[r'].timer + (t - s.back.clock) }

/-- A read or write command that the command path carries at clock `t` (log entries 8, 24) keeps R122: it is that of
the first request in service, its bank is ACTIVE on its row with tRCD passed, its burst begins no earlier than the end
of the last burst, 2 clocks later where rank or direction differs, and a read comes tWTR after the rank's last write
burst. The request leaves queue and service list (R135); its burst, RL or RL − 1 clocks later and 4 clocks long, is on
its way (R118); under the close policy the bank is to precharge itself from this clock on (R123). Where R125
gives the path at `t` to no such command, the row leaves the state as it stands (log entry 5). -/
def Obligations.ColumnRule : Prop :=
  (∀ (t : Nat) (s : State), (∀ id, issued t s ≠ some (.column id)) → exec (.columnCommand t) s = .next s) ∧
  ∀ (t : Nat) (s : State) (id : Nat), issued t s = some (.column id) →
    ∃ q ∈ s.back.queue, q.id = id ∧ s.back.service.find? (fun n => (s.back.request n).isSome) = some id ∧
      (s.back.bank q.place.rank q.place.bank).row = some q.place.row ∧
      (∀ c, (s.back.bank q.place.rank q.place.bank).lastAct = some c → c + s.back.timing.tRCD ≤ t) ∧
      (∀ x, s.back.dataPath = some x → x.rank = q.place.rank → x.write = q.write →
        x.finish ≤ s.back.burstStart q.write t) ∧
      (∀ x, s.back.dataPath = some x → ¬(x.rank = q.place.rank ∧ x.write = q.write) →
        x.finish + 2 ≤ s.back.burstStart q.write t) ∧
      (q.write = false → ∀ i c, s.back.writeEnd q.place.rank i = some c → c + s.back.timing.tWTR ≤ t) ∧
      ∃ u, exec (.columnCommand t) s = .next u ∧
        u = { s with back := { s.back with
          queue := s.back.queue.filter (fun x => x.id != id)
          service := s.back.service.filter (fun n => n != id)
          bursts := s.back.bursts ++ [{ req := q
                                        start := t + (if q.write then s.back.timing.rl - 1 else s.back.timing.rl)
                                        finish := t + (if q.write then s.back.timing.rl - 1 else s.back.timing.rl) + 4 }]
          dataPath := some { rank := q.place.rank, write := q.write
                             finish := t + (if q.write then s.back.timing.rl - 1 else s.back.timing.rl) + 4 }
          banks := u.back.banks, ranks := u.back.ranks, clock := t, lastCommand := some t } } ∧
        u.back.bank q.place.rank q.place.bank = { s.back.bank q.place.rank q.place.bank with
          lastCol := some t
          lastRead := if q.write then (s.back.bank q.place.rank q.place.bank).lastRead else some t
          closing := if s.back.timing.tIDLE = 0 then some t else none } ∧
        (∀ r' i', (r', i') ≠ (q.place.rank, q.place.bank) → u.back.bank r' i' = s.back.bank r' i') ∧
        ∀ r' : Fin 2, u.back.ranks[r'] = { s.back.ranks[r'] with
          timer := s.back.ranks[r'].timer + (t - s.back.clock) }

/-- A refresh that the command path carries at clock `t` (R127, R128; log entry 8): its rank is FORCED, or NORMAL with no
request in the queue and a refresh due; all eight banks are IDLE with tRP passed. The rank is then REFRESHING, its due lower
by 1. A refresh ends tRFC clocks later: the rank is NORMAL, or FORCED again where its due has reached 8. Where R125 gives the
path at `t` to no refresh, and where a rank is not REFRESHING, the row leaves the state as it stands (log entry 5). -/
def Obligations.RefreshRule : Prop :=
  (∀ (t : Nat) (s : State), (∀ r, issued t s ≠ some (.refresh r)) → exec (.refresh t) s = .next s) ∧
  (∀ (s : State) (r : Fin 2), s.back.ranks[r].state ≠ .refreshing → exec (.refreshEnd r) s = .next s) ∧
  (∀ (t : Nat) (s : State) (r : Fin 2), issued t s = some (.refresh r) →
    (s.back.ranks[r].state = .forced ∨
      s.back.ranks[r].state = .normal ∧ 1 ≤ s.back.ranks[r].due ∧ ∀ q ∈ s.back.queue, q.place.rank ≠ r) ∧
    (∀ i, (s.back.bank r i).row = none ∧ ∀ c, (s.back.bank r i).lastPre = some c → c + s.back.timing.tRP ≤ t) ∧
    ∃ u, exec (.refresh t) s = .next u ∧
      u = { s with back := { s.back with ranks := u.back.ranks, clock := t, lastCommand := some t } } ∧
      u.back.ranks[r] = { s.back.ranks[r] with
        state := .refreshing, due := s.back.ranks[r].due - 1, lastRefresh := some t
        timer := s.back.ranks[r].timer + (t - s.back.clock) } ∧
      ∀ r' : Fin 2, r' ≠ r → u.back.ranks[r'] = { s.back.ranks[r'] with
        timer := s.back.ranks[r'].timer + (t - s.back.clock) }) ∧
  (∀ (s : State) (r : Fin 2) (c : Nat), live s = true → s.back.ranks[r].state = .refreshing →
    s.back.ranks[r].lastRefresh = some c →
    ∃ m u : State, exec (.refreshEnd r) s = .next u ∧
      m = { s with back := { s.back with
        ranks := m.back.ranks, clock := max s.back.clock (c + s.back.timing.tRFC) } } ∧ TimersOnly s m ∧
      (s.back.ranks[r].due < 8 → u = { m with back := { m.back with ranks := u.back.ranks } } ∧
        u.back.ranks[r] = { m.back.ranks[r] with state := .normal } ∧
        ∀ r' : Fin 2, r' ≠ r → u.back.ranks[r'] = m.back.ranks[r']) ∧
      (s.back.ranks[r].due = 8 → ForcedOn r m u))

/-- A refresh accrues (R126): one of the returns to 0 that the rank's timer has made already, or else the next one, at
whose clock the machine then stands, at the next clock where the timer stands at tREFI or above; noting the returns, and
moving the clock on to the next, are the model's (log entry 8). The due rises by 1,
staying at 8. A NORMAL rank whose due is then 8 is FORCED (R128): its requests in service leave the service list and are
WAITING again in their places, with counts no lower than before; those of the other rank stay in service. -/
def Obligations.RefreshAccrues : Prop :=
  ∀ (s : State) (r : Fin 2), live s = true → s.back.startUp = none →
    ∃ m m' u : State, exec (.refreshAccrual r) s = .next u ∧
      (s.back.ranks[r].accrued ≠ 0 → m = s) ∧
      (s.back.ranks[r].accrued = 0 →
        m = { s with back := { s.back with
          clock := s.back.clock + max 1 (s.back.timing.tREFI - s.back.ranks[r].timer), ranks := m.back.ranks } } ∧
        TimersOnly s m ∧ m.back.ranks[r].timer = 0 ∧ m.back.ranks[r].accrued = 1) ∧
      m' = { m with back := { m.back with ranks := m'.back.ranks } } ∧
      m'.back.ranks[r] = { m.back.ranks[r] with
        accrued := m.back.ranks[r].accrued - 1, due := min (s.back.ranks[r].due + 1) 8 } ∧
      (∀ r' : Fin 2, r' ≠ r → m'.back.ranks[r'] = m.back.ranks[r']) ∧
      (s.back.ranks[r].due < 7 ∨ s.back.ranks[r].state ≠ .normal → u = m') ∧
      (7 ≤ s.back.ranks[r].due → s.back.ranks[r].state = .normal → ForcedOn r m' u)

/-- An automatic precharge happens at the first clock, from that of its column command on, that R123 allows (R123; the
write bursts on their way count, log entry 24): the bank is IDLE with that clock as its last precharge. It uses no command
path. START-UP ends tRP clocks after its precharge (log entry 29) with the records of R140: every bank IDLE and last
precharged at it, every rank NORMAL with nothing due, no last burst; the requests that entered meanwhile stay. -/
def Obligations.OwnPrecharges : Prop :=
  (∀ (s : State) (r : Fin 2) (i : Fin 8) (from' : Nat), live s = true → (s.back.bank r i).closing = some from' →
    ∃ u c, exec (.automaticPrecharge r i) s = .next u ∧
      u = { s with back := { s.back with banks := u.back.banks, ranks := u.back.ranks, clock := max s.back.clock c } } ∧
      u.back.bank r i = { s.back.bank r i with row := none, lastPre := some c, closing := none } ∧
      (∀ r' i', (r', i') ≠ (r, i) → u.back.bank r' i' = s.back.bank r' i') ∧ TimersOnly s u ∧
      AutoAt r i from' c s.back) ∧
  (∀ (s : State) (u : StartUp) (c : Nat), live s = true → s.back.startUp = some u →
    c = u.start + (if u.powerUp then 131072 else 0) →
    exec .startUpEnd s = .next { s with back := { s.back with
      banks := Vector.replicate 16 { row := none, lastAct := none, lastPre := some c, lastRead := none, lastWrite := none
                                     lastCol := none, closing := none }
      ranks := Vector.replicate 2 { history := [], state := .normal, due := 0, timer := 0, lastRefresh := none, accrued := 0 }
      dataPath := none
      startUp := none
      clock := max s.back.clock (c + s.back.timing.tRP) } })

/-- A front read's burst arrives (R136), at its end clock (log entry 49): a PLAIN or RAW WINDOW read is answered DONE with
the stored line, a KEY WINDOW read with the line deciphered under its domain's line key, a MAP WINDOW read with the line
deciphered under the map key (R15, R32, R89). The read of a partial write goes on with that write: each enabled byte the
write's, each other byte what the line, deciphered in the KEY WINDOW, held (R15); it enters the Back Queue or waits to. A
KEY WINDOW access whose domain has lost its seed is refused CLOSED (R83; log entry 15). A burst that nothing awaits is
discarded (R138). Memory is left as it was. -/
def Obligations.ReadBurstArrives : Prop :=
  ∀ (s : State) (x : Burst), PulseTaken s → live s = true → SlotLaw s → HeadRead x .front s →
    ∃ m u : State, exec .readBurst s = .next u ∧ BurstTaken x s m ∧
      (slotAwaiting x.req.id s = none → u = m) ∧
      ∀ (y : Slot) (r : Region) (l : Line), slotAwaiting x.req.id s = some y → y.region = some r →
        l = s.mem.readLine x.req.line →
        (r = .key → y.keyLost = true ∨ lineKey s y.txn.dom = none → u = m.refused y.txn .key .closed .noReason) ∧
        ∀ clear, ((r = .plain ∨ r = .raw) ∧ clear = l ∨
            (∃ k, r = .key ∧ y.keyLost = false ∧ lineKey s y.txn.dom = some k ∧ clear = decipher k x.req.line l) ∨
            ∃ k, r = .map ∧ mapKey s = some k ∧ clear = decipher k x.req.line l) →
          (y.txn.dir = .read ∨ r = .plain ∨ r = .map → u = m.moveSlot y.txn.tag r (.responding .done clear)) ∧
          (y.txn.dir = .write → r = .key ∨ r = .raw → ∃ merged : Line,
            (∀ i : Fin 64, merged[i] = if y.txn.enables.getLsbD i.val then y.txn.data[i] else clear[i]) ∧
            if mayEnter (.front y.txn.tag) m = true then LineEnters y.txn r x.req.line merged m u
            else u = { m.moveSlot y.txn.tag r (.writeWait x.req.line merged) with
              back := m.back.await (.front y.txn.tag) })

/-- A write's burst is complete (R118, R137): every byte of its line whose mask is clear holds the request's data,
every other byte of back memory what it held, and the bank's last write is the end of the burst. A background
completion is counted while its operation is under way (R169, R173), whose end is taken in a row of its own (log entry 43);
a LIVE zero fill's is no longer awaited (R110); the other makers, retire fills among them, take theirs without effect
(R130), and leave the entry operation in progress as it was. -/
def Obligations.WriteCompletes : Prop :=
  ∀ (s : State) (x : Burst), live s = true → s.mem.wf → s.back.bursts.head? = some x → x.req.write = true →
    ∃ u, exec .writeCompletion s = .next u ∧
      u = { s with
        mem := u.mem
        back := { s.back with
          bursts := s.back.bursts.tail, banks := u.back.banks, ranks := u.back.ranks, clock := max s.back.clock x.finish }
        entry := { s.entry with work := u.entry.work }
        cab := { s.cab with bg := { s.cab.bg with completed := u.cab.bg.completed } } } ∧
      (∀ i : Fin 64, u.mem.readByte (backAddr x.req.line + i.val) =
        if x.req.masks.getLsbD i.val then s.mem.readByte (backAddr x.req.line + i.val) else x.req.data[i]) ∧
      (∀ a, (a < backAddr x.req.line ∨ backAddr x.req.line + 64 ≤ a) → u.mem.readByte a = s.mem.readByte a) ∧
      u.back.bank x.req.place.rank x.req.place.bank =
        { s.back.bank x.req.place.rank x.req.place.bank with lastWrite := some x.finish } ∧
      (∀ r i, (r, i) ≠ (x.req.place.rank, x.req.place.bank) → u.back.bank r i = s.back.bank r i) ∧ TimersOnly s u ∧
      (u.cab.bg.completed = if x.req.origin = .background s.cab.bg.run ∧ s.cab.bg.op ≠ .idle then
        s.cab.bg.completed + 1 else s.cab.bg.completed) ∧
      (∀ y d f left out rest, x.req.origin = .fill → s.entry.work = some (.finalising y d f (.filling left out) rest) →
        u.entry.work = some (.finalising y d f (.filling left (out.erase x.req.id)) rest)) ∧
      (x.req.origin ≠ .fill ∨ (∀ y d f left out rest, s.entry.work ≠ some (.finalising y d f (.filling left out) rest)) →
        u.entry.work = s.entry.work)

/-- Background operations (R169, R173). While the queue lets one enter, the scrub's next line of zeros at PAB + next × 64,
or the map clear's next map line of zeros enciphered under the map key, is the Back Queue's last request, and the next line
rises by 1; while the gate holds it back it begins to wait at its row (log entry 19). After the last line, and with no
operation, none is offered. A scrub's 1,179,648th completion makes the sub-state QUIET with SCRUB-DONE; a map clear's
131,072nd clears the mark and makes the cabinet READY with CLEAR-DONE, each in a row of its own (log entry 43); the counts
are then 0 (log entry 35). Before it, nothing happens. -/
def Obligations.BackgroundLines : Prop :=
  (∀ (s : State) (l : BackLine) (data : Line), live s = true →
     (s.cab.bg.op = .scrub ∧ s.cab.bg.next < 1179648 ∧ data = zeroLine ∧
         l.toNat * 64 = pabBase s.seeds.pab + s.cab.bg.next * 64 ∨
       ∃ k, s.cab.bg.op = .mapClear ∧ s.cab.bg.next < 131072 ∧ mapKey s = some k ∧ data = encipher k l zeroLine ∧
         l.toNat * 64 = pabBase s.seeds.pab + 0x04000000 + s.cab.bg.next * 64) →
     (mayEnter .background s = true → exec .backgroundLineOffer s = .next { s with
       back := { s.back.push true l (.background s.cab.bg.run) 0#3 data 0#64 with
                 waiting := s.back.waiting.erase .background }
       cab := { s.cab with bg := { s.cab.bg with next := s.cab.bg.next + 1 } } }) ∧
     (mayEnter .background s = false → exec .backgroundLineOffer s = .next { s with
       back := s.back.await .background })) ∧
  (∀ s : State, s.cab.bg.op = .idle ∨ s.cab.bg.op = .scrub ∧ 1179648 ≤ s.cab.bg.next ∨
     s.cab.bg.op = .mapClear ∧ 131072 ≤ s.cab.bg.next → exec .backgroundLineOffer s = .next s) ∧
  (∀ s : State, live s = true →
     (s.cab.bg.op = .scrub → s.cab.bg.completed = 1179648 → exec .scrubDone s = .next { s with
       cab := { s.cab with sub := .quiet, bg := { op := .idle, next := 0, completed := 0, run := s.cab.bg.run } }
       ev := { s.ev with flags := s.ev.flags ||| Flag.scrubDone.mark } }) ∧
     (s.cab.bg.op = .mapClear → s.cab.bg.completed = 131072 → exec .clearDone s = .next { s with
       seeds := { s.seeds with clearPending := false }
       cab := { s.cab with cabinet := .ready, bg := { op := .idle, next := 0, completed := 0, run := s.cab.bg.run } }
       ev := { s.ev with flags := s.ev.flags ||| Flag.clearDone.mark } }) ∧
     (s.cab.bg.op ≠ .scrub ∨ s.cab.bg.completed < 1179648 → exec .scrubDone s = .next s) ∧
     (s.cab.bg.op ≠ .mapClear ∨ s.cab.bg.completed < 131072 → exec .clearDone s = .next s))


/-! ## The Tamper Monitor -/

/-- Conversions. In FOCUS the focus channel is taken; in SWEEP the first enabled one above the channel last converted,
wrapping, or the lowest enabled one when none has been converted (R145). The code is the input in steps of 2.5 V ÷
256, rounded down and clamped to 0 and 255 (R144; the input in nanovolts, log entry 27); it joins the history of four
and becomes its channel's last code (R146). Where it is judged, a code inside the window returns the count to 0, and
one outside raises it, up to the depth, a result that takes it there detecting LOW or HIGH, a mark that
CHANNEL_DETECTION takes (log entry 10); a disabled channel, or CH0 on battery, is not judged (R147). No other channel
and no setting changes. -/
def Obligations.ConversionRule : Prop :=
  (∀ m : Monitor,
     (∀ c, m.mode = .focus c → m.nextChannel = some c) ∧
     (m.mode = .sweep → (∀ c : Fin 8, m.channels[c].enable = false) → m.nextChannel = none) ∧
     (m.mode = .sweep → (∃ c : Fin 8, m.channels[c].enable = true) → ∃ c, m.nextChannel = some c ∧
       m.channels[c].enable = true ∧ ∀ j : Fin 8, m.channels[j].enable = true →
         match m.lastConv with
         | none => c ≤ j
         | some l => (c.val + 7 - l.val) % 8 ≤ (j.val + 7 - l.val) % 8)) ∧
  (∀ (nanovolts : Int) (s : State),
     (s.mon.nextChannel = none → exec (.conversion nanovolts) s = .next s) ∧
     ∀ (c : Fin 8) (x : Channel), s.mon.nextChannel = some c → s.mon.channels[c] = x → s.mon.history.length ≤ 4 →
       ∃ (code : Byte) (count : Nat) (detected : Option Bool) (u : State),
         code.toNat = min 255 ((max nanovolts 0 * 256 / 2500000000).toNat) ∧
         exec (.conversion nanovolts) s = .next u ∧
         u = { s with mon := { s.mon with
           channels := u.mon.channels
           lastConv := some c
           history := (if s.mon.history.length = 4 then s.mon.history.tail else s.mon.history) ++ [(c, code)] } } ∧
         u.mon.channels[c] = { x with last := some code, count := count, detected := detected } ∧
         (∀ j : Fin 8, j ≠ c → u.mon.channels[j] = s.mon.channels[j]) ∧
         (x.enable = false ∨ c = 0 ∧ s.cab.power = .battery → count = x.count ∧ detected = x.detected) ∧
         (x.enable = true → c ≠ 0 ∨ s.cab.power = .mains →
           (x.low ≤ code ∧ code ≤ x.high → count = 0 ∧ detected = x.detected) ∧
           (code < x.low ∨ x.high < code → count = min (x.count + 1) x.depth ∧
             detected = if x.count + 1 = x.depth then some (decide (x.high < code)) else x.detected)))

/-- A detection (log entry 10) while the cabinet holds keys destroys them (R143, R157, R165), from CLEARING, RESTORE
and READY, on mains, at RST and on battery: no seed is left, the Entry List is empty with no entry domain and both
windows SHUT, domains 1 to 63 are VACANT with their epochs kept, no clear is pending, and the cabinet is ZEROED,
SCRUBBING exactly on mains without RST and with the scrub setting ON. The record takes the alarm: a first one with
cause and time, a further one counted up to 255; LID stands OPEN and PANEL PRESSED where that is the detection (R154), and
the rest of the monitor stays. Memory, PAB, timing and the switches are left as they were. -/
def Obligations.AlarmDestroysKeys : Prop :=
  ∀ (c : Instr) (cause : Cause) (s : State), PulseTaken s → Detects c cause s →
    s.cab.cabinet ≠ .blank → s.cab.cabinet ≠ .zeroed → ∃ u, exec c s = .next u ∧ u.seeds.root = none ∧ (∀ d : Fin 64, u.seeds.domains[d] = none) ∧
      u.entry.list = [] ∧ u.entry.domain = none ∧ u.entry.windowA = .reset ∧ u.entry.windowB = .reset ∧
      (∀ d : Fin 64, u.doms[d] = { state := .vacant, epoch := s.doms[d].epoch, lease := 0#16, staged := none
                                   ending := false }) ∧
      u.seeds.clearPending = false ∧ u.cab.cabinet = .zeroed ∧
      (u.cab.sub = .scrubbing ↔ live s = true ∧ s.cab.scrubOn = true) ∧
      (s.mon.record.valid = false → u.mon.record = { valid := true, first := some cause, time := s.mon.seconds
                                                     causes := cause.mark, further := 0#8 }) ∧
      (s.mon.record.valid = true → u.mon.record = { s.mon.record with
        causes := s.mon.record.causes ||| cause.mark, further := u.mon.record.further } ∧
        u.mon.record.further.toNat = min 255 (s.mon.record.further.toNat + 1)) ∧
      u.mem = s.mem ∧ u.seeds.pab = s.seeds.pab ∧ u.back.timing = s.back.timing ∧ u.entry.switchA = s.entry.switchA ∧
      u.entry.switchB = s.entry.switchB ∧ u.entry.limit = s.entry.limit ∧ u.cab.power = s.cab.power ∧
      u.cab.scrubOn = s.cab.scrubOn ∧ u.run = s.run ∧ DetectionTaken c s.mon u.mon ∧ u.mon.testSet = s.mon.testSet

/-- On mains the zeroisation reaches the main domain in the same step (R166, R167; the detections are the marks of log entry
10): no buffer holds a page, a lock or a mark, Walk List, Update List and Fill List are empty, no entry operation is left, a
waiting lock request is answered STATE. The Back Queue and the bursts under way stay; of the makers that wait to enter, the
PLAIN transactions alone go on. A scrub starts at line 0 where the sub-state is SCRUBBING; without one the background counts
are 0 (log entry 35). Every window transaction whose status was not decided is answered UNREADY and reported so, the reports
in some order (R167, R182; log entry 45); every other slot, those of no region among them (log entry 40), and the transaction
held at the port, stay as they were. TAMPER is raised when the alarm made the record valid, LOCK-LOST when a locked entry
went. -/
def Obligations.AlarmReachesMainDomain : Prop :=
  ∀ (c : Instr) (cause : Cause) (s : State), PulseTaken s → Detects c cause s →
    s.cab.cabinet ≠ .blank → s.cab.cabinet ≠ .zeroed → live s = true → SlotLaw s →
    ∃ u, exec c s = .next u ∧
      (∀ i : Fin 16, u.xlat.fixed[i] = {
        held := { s.xlat.fixed[i].held with valid := false }, lock := false, used := false }) ∧
      (∀ i : Fin 256, u.xlat.sets[i] = {
        way0 := { s.xlat.sets[i].way0 with valid := false }, way1 := { s.xlat.sets[i].way1 with valid := false }
        recentOne := false }) ∧ u.xlat.walks = [] ∧
      u.xlat.waiting = [] ∧ u.maps.updates = [] ∧ u.maps.requests = [] ∧ u.maps.fills = [] ∧ u.entry.work = none ∧
      u.entry.waiting = [] ∧
      u.back = { s.back with waiting := s.back.waiting.filter fun w => match w with
        | .front tag => s.front.slots.any fun x => x.txn.tag == tag && !(regionOf x.txn.line).isWindow
        | _ => false } ∧
      u.cab.bg.next = 0 ∧ u.cab.bg.completed = 0 ∧ u.cab.bg.op = (if s.cab.scrubOn then .scrub else .idle) ∧
      (s.link.slot = .waiting → (∀ f, c ≠ .zeroise f) → u.link.slot = .ready .state []) ∧
      (∀ f, c = .zeroise f → u.link.slot = .ready .accepted []) ∧
      u.front.held = s.front.held ∧
      (∀ tag x, findSlot s tag = some x → (regionOf x.txn.line).isWindow = true → x.responds = false →
        findSlot u tag = some { x with phase := .responding .unready zeroLine }) ∧
      (∀ tag x, findSlot s tag = some x → (regionOf x.txn.line).isWindow = false ∨ x.responds = true →
        findSlot u tag = some x) ∧
      (s.mon.record.valid = false → u.ev.flags &&& Flag.tamper.mark = Flag.tamper.mark) ∧
      ∃ reports : List Report, reports.Perm
          ((s.front.slots.filter fun x => (regionOf x.txn.line).isWindow && !x.responds).map unreadyReport) ∧
        u.ev = reports.foldl (fun e r => e.take r) { s.ev with flags := s.ev.flags |||
          (if s.mon.record.valid then 0#11 else Flag.tamper.mark) ||| LockLostMark (fun _ => true) s }

/-- A detection (by the marks of log entry 10) in BLANK joins the test set and destroys nothing (R142); in ZEROED it adds
to the record alone (R143, R157), with TAMPER where that makes the record valid after an ACK-TAMPER (R159; log entry 44).
Either way LID stands OPEN and PANEL PRESSED where that is the detection (R154), and the rest of the monitor, every other
flag, seeds, domains, Entry List, cabinet, buffers, queue and memory stay. A return
to CLOSED or RELEASED detects nothing (R154), and a detection row does nothing where nothing is detected (log entries 5
and 10). -/
def Obligations.DetectionElsewhere : Prop :=
  ∀ (c : Instr) (s : State), PulseTaken s →
    (∀ cause, Detects c cause s → s.cab.cabinet = .blank ∨ s.cab.cabinet = .zeroed →
      ∃ u, exec c s = .next u ∧ u = { s with mon := u.mon, ev := u.ev, link := u.link } ∧
        DetectionTaken c s.mon u.mon ∧
        (∀ f, c = .zeroise f → u.link = { s.link with slot := .ready .accepted [], acked := true }) ∧
        ((∀ f, c ≠ .zeroise f) → u.link = s.link) ∧
        (s.cab.cabinet = .blank → u.mon.testSet = s.mon.testSet ||| cause.mark ∧ u.mon.record = s.mon.record ∧
          u.ev = s.ev) ∧
        (s.cab.cabinet = .zeroed → u.mon.testSet = s.mon.testSet ∧
          u.ev = { s.ev with flags := s.ev.flags |||
            (if live s = true ∧ s.mon.record.valid = false then Flag.tamper.mark else 0#11) } ∧
          (s.mon.record.valid = false → u.mon.record = { valid := true, first := some cause, time := s.mon.seconds
                                                         causes := cause.mark, further := 0#8 }) ∧
          (s.mon.record.valid = true → u.mon.record = { s.mon.record with
            causes := s.mon.record.causes ||| cause.mark, further := u.mon.record.further } ∧
            u.mon.record.further.toNat = min 255 (s.mon.record.further.toNat + 1)))) ∧
    (∀ isOpen, c = .lidRegistered isOpen → isOpen = false ∨ s.mon.lid.on = true →
      exec c s = .next { s with mon := { s.mon with lid := { on := isOpen, count := 0 } } }) ∧
    (∀ pressed, c = .panelRegistered pressed → pressed = false ∨ s.mon.panel.on = true →
      exec c s = .next { s with mon := { s.mon with panel := { on := pressed, count := 0 } } }) ∧
    (∀ i, c = .channelDetection i → s.mon.channels[i].detected = none → exec c s = .next s) ∧
    (∀ i, c = .meshDetection i → s.mon.meshes[i].detected = false → exec c s = .next s)

/-- The meshes and the seconds (R151 to R153, R156). A crossing at an enabled mesh captures its interval: not judged
from an UNREFERENCED start, good from P − T to P + T, bad otherwise; it leaves the counter at 0 and the mesh
REFERENCED. A miss counts as a bad interval and leaves it UNREFERENCED. A bad interval or a miss raises the count up
to the depth, and detects on reaching it, a mark that MESH_DETECTION takes (log entry 10). The drive phase goes from P
− 1 to 0. A disabled mesh takes neither crossing nor miss. The seconds counter stops at its maximum. The normal output
is high from phase D to P ÷ 2 − 1, the counter-phase output from P ÷ 2 + D to P − 1, never both. -/
def Obligations.MeshesAndSeconds : Prop :=
  (∀ (i : Fin 2) (s : State) (m : Mesh), s.mon.meshes[i] = m →
     (∃ u, exec (.meshCrossing i) s = .next u ∧ u = { s with mon := { s.mon with meshes := u.mon.meshes } } ∧
       (∀ j : Fin 2, j ≠ i → u.mon.meshes[j] = s.mon.meshes[j]) ∧
       (m.enable = false → u = s) ∧
       (m.enable = true → m.referenced = false → u.mon.meshes[i] = { m with interval := 0, referenced := true }) ∧
       (m.enable = true → m.referenced = true → m.period ≤ m.interval + m.tol → m.interval ≤ m.period + m.tol →
         u.mon.meshes[i] = { m with interval := 0, count := 0 }) ∧
       (m.enable = true → m.referenced = true → m.interval + m.tol < m.period ∨ m.period + m.tol < m.interval →
         u.mon.meshes[i] = { m with
           interval := 0, count := min (m.count + 1) m.depth
           detected := m.detected || decide (m.count + 1 = m.depth) })) ∧
     (∃ u, exec (.meshMiss i) s = .next u ∧ u = { s with mon := { s.mon with meshes := u.mon.meshes } } ∧
       (∀ j : Fin 2, j ≠ i → u.mon.meshes[j] = s.mon.meshes[j]) ∧
       (m.enable = false → u = s) ∧
       (m.enable = true → u.mon.meshes[i] = { m with
         interval := 0, referenced := false, count := min (m.count + 1) m.depth
         detected := m.detected || decide (m.count + 1 = m.depth) })) ∧
     (∃ u, exec (.meshDrivePhase i) s = .next u ∧ u = { s with mon := { s.mon with meshes := u.mon.meshes } } ∧
       (∀ j : Fin 2, j ≠ i → u.mon.meshes[j] = s.mon.meshes[j]) ∧
       (m.enable = true → m.phase < m.period → u.mon.meshes[i] = { m with phase := (m.phase + 1) % m.period }) ∧
       (m.enable = false → u.mon.meshes[i] = { m with phase := 0 })) ∧
     (∃ u, exec .monitorSecond s = .next u ∧
       u = { s with mon := { s.mon with seconds := u.mon.seconds, secondClocks := 0 } } ∧
       u.mon.seconds.toNat = min 4294967295 (s.mon.seconds.toNat + 1))) ∧
  (∀ m : Mesh, m.period % 2 = 0 → m.phase < m.period →
     ((m.outputs).1 = true ↔ m.enable = true ∧ m.dead ≤ m.phase ∧ m.phase ≤ m.period / 2 - 1) ∧
     ((m.outputs).2 = true ↔ m.enable = true ∧ m.period / 2 + m.dead ≤ m.phase ∧ m.phase ≤ m.period - 1) ∧
     ¬((m.outputs).1 = true ∧ (m.outputs).2 = true))

/-! ## Power -/

/-- PGOOD falls, and RST is asserted on mains (R92, R100, R139, R177, R179): front slots, buffers, walks, updates,
fills, waiting and entry operations and the Back Queue are gone, both windows are SHUT, OPEN domains are CLOSED with
their leases cleared, and background progress is NONE. Seeds, PAB, cabinet state, Entry List, entry domain, limit,
switches, run compare, timing, and the monitor's settings and record are kept, with CH0's count and the pace at 0
after PGOOD alone. Under RST a write whose burst had begun is complete (R139; log entry 30): where its masks are clear its
line holds its data, the later burst's where two have begun; every other byte of memory is kept. What
the emptied fields of the main domain hold meanwhile is the model's choice (log entries 12, 33, 35). -/
def Obligations.MainDomainStops : Prop :=
  ∀ s : State, s.cab.power = .mains →
    (∃ u, exec .mainsLoss s = .next u ∧ MainStopped s u ∧ u.cab.power = .battery ∧ u.cab.rst = s.cab.rst ∧
      u.mon = { s.mon with channels := u.mon.channels, pace := 0 } ∧
      u.mon.channels[(0 : Fin 8)] = { s.mon.channels[(0 : Fin 8)] with count := 0 } ∧
      ∀ i : Fin 8, i ≠ 0 → u.mon.channels[i] = s.mon.channels[i]) ∧
    (s.cab.rst = false → s.mem.wf →
      ∃ u, exec .rstAsserted s = .next u ∧ MainStopped s u ∧ u.cab.power = .mains ∧ u.cab.rst = true ∧ u.mon = s.mon ∧
        (∀ a, (∀ x ∈ s.back.bursts, ∀ i, ¬Covers s.back x i a) → u.mem.readByte a = s.mem.readByte a) ∧
        ∀ before x after i a, s.back.bursts = before ++ x :: after → Covers s.back x i a →
          (∀ y ∈ after, ∀ j, ¬Covers s.back y j a) → u.mem.readByte a = x.req.data[i])

/-- PGOOD rises, and RST ends (R140, R164, R178, R179, R190, R192, R199): the main domain begins empty with the Back
Controller in START-UP, after a loss with its power-up sequence; MAINS-RETURN is raised, and TAMPER when the record is
valid; enables are all set, refusal record, count and expired set clear. READY becomes RESTORE, CLEARING restarts its map
clear at line 0, ZEROED is QUIET. The answer slot is EMPTY and the strap sampled afresh. Seeds, domains, Entry List, the
monitor and memory are kept. Where PGOOD rises under RST, the strap is sampled too and the main domain stays held, and the
end of RST, with the power-up sequence then, starts it (R164; log entry 25). Elsewhere RST rows change the level of their
line alone, and a PGOOD row that changes nothing does nothing (log entry 5). -/
def Obligations.MainDomainReturns : Prop :=
  ∀ (s : State) (strap : BitVec 2),
    (s.cab.power = .battery → ∃ u, exec (.mainsReturn strap) s = .next u ∧ u.cab.rst = s.cab.rst ∧
      (s.cab.rst = false → MainReturned true strap s u) ∧
      (s.cab.rst = true → MainEmpty true strap s u ∧ live u = false ∧ alertOutput u = false ∧ u.cab.bg.op = .idle ∧
        u.cab.bg.next = 0 ∧ u.cab.bg.completed = 0)) ∧
    (s.cab.power = .mains → s.cab.rst = true →
      ∃ u, exec (.rstEnd strap) s = .next u ∧ MainReturned s.back.startUp.isSome strap s u ∧ u.cab.rst = false) ∧
    (s.cab.power = .battery ∨ s.cab.rst = true →
      exec .rstAsserted s = .next { s with cab := { s.cab with rst := true } }) ∧
    (s.cab.power = .battery ∨ s.cab.rst = false →
      exec (.rstEnd strap) s = .next { s with cab := { s.cab with rst := false } }) ∧
    (s.cab.power = .battery → exec .mainsLoss s = .next s) ∧
    (s.cab.power = .mains → exec (.mainsReturn strap) s = .next s)

/-- First battery connection (R93, R117, R120, R148, R162, R180): BLANK, no seed, every domain VACANT under epoch 0, the
Entry List empty, the record not valid, and every setting of the part at its default; the counts towards the next monitor
clock and second are 0 (log entry 7). With PGOOD low the part is on battery and its main domain empty (what its fields hold
meanwhile is the model's choice, log entry 12). With PGOOD high that state takes a mains return, with a power-up sequence,
which the level of RST holds up (R164; log entry 25). What waits at the part's inputs stays. -/
def Obligations.FirstConnection : Prop :=
  ∀ (s : State) (strap : BitVec 2),
    ∃ u v, exec (.firstBatteryConnection false strap) s = .next u ∧ exec (.firstBatteryConnection true strap) s = .next v ∧
      u.cab.cabinet = .blank ∧ u.cab.scrubOn = true ∧ u.cab.power = .battery ∧ u.cab.rst = s.cab.rst ∧
      u.seeds.root = none ∧ (∀ d : Fin 64, u.seeds.domains[d] = none) ∧ u.seeds.clearPending = false ∧
      pabBase u.seeds.pab = 0x78000000 ∧
      (∀ d : Fin 64, u.doms[d] = { state := .vacant, epoch := 0#8, lease := 0#16, staged := none, ending := false }) ∧
      u.entry.list = [] ∧ u.entry.domain = none ∧ u.entry.limit = 900#16 ∧
      u.entry.switchA = { on := false, count := 0 } ∧ u.entry.switchB = { on := false, count := 0 } ∧
      (∀ c : Fin 8, u.mon.channels[c] = { enable := true, low := 0#8, high := 255#8, depth := 3, count := 0, last := none
                                          detected := none }) ∧
      (∀ i : Fin 2, u.mon.meshes[i] = { enable := true, period := 64, dead := 2, tol := 4, depth := 3, phase := 0
                                        interval := 0, referenced := false, count := 0, detected := false }) ∧
      u.mon.mode = .sweep ∧ u.mon.lastConv = none ∧ u.mon.pace = 0 ∧ u.mon.history = [] ∧
      u.mon.lid = { on := false, count := 0 } ∧ u.mon.panel = { on := false, count := 0 } ∧ u.mon.testSet = 0#21 ∧
      u.mon.record = { valid := false, first := none, time := 0#32, causes := 0#21, further := 0#8 } ∧
      u.mon.seconds = 0#32 ∧ u.mon.secondClocks = 0 ∧ u.mon.meshClocks = 0 ∧ u.run = { counter := 0, compare := 4095 } ∧
      u.back.timing = { tRCD := 6, tRP := 6, tRAS := 18, tRRD := 4, tFAW := 24, rl := 6, tWR := 6, tWTR := 4, tRTP := 4
                        tRFC := 104, tREFI := 3120, tIDLE := 32 } ∧
      u.front.slots = [] ∧ u.front.held = none ∧ u.xlat = .reset ∧ u.maps = .reset ∧ u.entry.waiting = [] ∧
      u.entry.work = none ∧ u.entry.windowA.state = .shut ∧ u.entry.windowB.state = .shut ∧ u.back.queue = [] ∧
      u.back.service = [] ∧ u.back.waiting = [] ∧ u.back.bursts = [] ∧ u.back.startUp = none ∧ u.cab.bg.op = .idle ∧
      u.cab.bg.next = 0 ∧ u.cab.bg.completed = 0 ∧ live u = false ∧ alertOutput u = false ∧
      u.pending = s.pending ∧ u.arrivals = s.arrivals ∧ v.pending = s.pending ∧ v.arrivals = s.arrivals ∧
      v.cab.rst = s.cab.rst ∧ (s.cab.rst = false → MainReturned true strap u v) ∧
      (s.cab.rst = true → MainEmpty true strap u v ∧ live v = false ∧ alertOutput v = false ∧ v.cab.bg.op = .idle ∧
        v.cab.bg.next = 0 ∧ v.cab.bg.completed = 0)


/-! ## The supervisor link -/

/-- The frame of a command (R192 to R195). A transfer to another address, or while the main domain does not work, is
not acknowledged and nothing else changes; a code of the table with a wrong argument count is answered LENGTH, a code
that is none of the 29 is answered UNKNOWN, and neither changes anything but the answer slot. The first byte of a write
transfer picks the command and the others are its arguments: each of the 29 codes picks the row of its name, 0x02 by its
item the row of that item, and by none of the ten items that of item 1 (log entry 26), any other code UNKNOWN (R66, R67, R69,
R194, section 11.4). -/
def Obligations.LinkFrames : Prop :=
  (∀ (c : Instr) (f : Frame) (s : State), WellFormed c = true → (awaitsPulse c = true → PulseTaken s) →
    (∀ n, linkRow c = some (f, n) →
      (live s = false ∨ f.addr ≠ linkAddress s →
        exec c s = .next { s with link := { s.link with acked := false } }) ∧
      (live s = true → f.addr = linkAddress s → f.args.length ≠ n → exec c s = .next (s.answer .length []))) ∧
    (∀ code, c = .unknown code f →
      (live s = false ∨ f.addr ≠ linkAddress s →
        exec c s = .next { s with link := { s.link with acked := false } }) ∧
      (live s = true → f.addr = linkAddress s → exec c s = .next (s.answer .unknown [])))) ∧
  ∀ (f : Frame) (code : Byte) (c : Instr), transferCommand f.addr (code :: f.args) = some c ↔
    (code, c) ∈ [(0x01#8, Instr.status f), (0x10#8, Instr.commission f), (0x11#8, Instr.recommission f),
      (0x12#8, Instr.resume f), (0x13#8, Instr.clearMap f), (0x14#8, Instr.zeroise f), (0x20#8, Instr.enrol f),
      (0x21#8, Instr.erase f), (0x22#8, Instr.openRun f), (0x23#8, Instr.extendRun f)] ∨
    (code, c) ∈ [(0x24#8, Instr.closeRun f), (0x25#8, Instr.readDomain f), (0x26#8, Instr.readExpired f),
      (0x27#8, Instr.clearExpired f), (0x30#8, Instr.setEntry f), (0x31#8, Instr.abandonEntry f),
      (0x32#8, Instr.readEntry f), (0x40#8, Instr.lock f), (0x41#8, Instr.unlock f), (0x42#8, Instr.demapPage f)] ∨
    (code, c) ∈ [(0x43#8, Instr.demapDomain f), (0x44#8, Instr.demapAll f), (0x50#8, Instr.readRefusal f),
      (0x51#8, Instr.clearRefusal f), (0x52#8, Instr.readTamper f), (0x53#8, Instr.ackTamper f),
      (0x54#8, Instr.readResults f), (0x55#8, Instr.clearEvents f)] ∨
    (code = 0x02#8 ∧ c = match (f.args.getD 0 0#8).toNat with
      | 2 => Instr.configureBackTiming f
      | 3 => Instr.configurePagePolicy f
      | 4 => Instr.configureRunCompare f
      | 5 => Instr.configureEntryLimit f
      | 6 => Instr.configureChannelSettings f
      | 7 => Instr.configureMeshSettings f
      | 8 => Instr.configureConverterMode f
      | 9 => Instr.configureScrubSetting f
      | 10 => Instr.configureEventEnables f
      | _ => Instr.configurePab f) ∨
    (c = Instr.unknown code f ∧ ∀ n ∈ [0x01, 0x02, 0x10, 0x11, 0x12, 0x13, 0x14, 0x20, 0x21, 0x22, 0x23, 0x24, 0x25, 0x26, 0x27, 0x30, 0x31, 0x32,
        0x40, 0x41, 0x42, 0x43, 0x44, 0x50, 0x51, 0x52, 0x53, 0x54, 0x55], code.toNat ≠ n)

/-- A read transfer (R196): a READY answer gives its answer byte, its data, and 0x00 for every further byte, and the
slot is EMPTY afterwards; an EMPTY slot gives NONE and 0x00; a WAITING one, another address, or a main domain that
does not work gives no acknowledge and no byte. Nothing but the link changes. -/
def Obligations.AnswerRead : Prop :=
  ∀ (addr : BitVec 7) (count : Nat) (s : State), ∃ u, exec (.answerRead addr count) s = .next u ∧
    u = { s with link := u.link } ∧ u.link.strap = s.link.strap ∧
    (live s = false ∨ addr ≠ linkAddress s ∨ s.link.slot = .waiting →
      u.link.acked = false ∧ u.link.sent = [] ∧ u.link.slot = s.link.slot) ∧
    (live s = true → addr = linkAddress s → ∀ code data,
      (s.link.slot = .ready code data ∨ s.link.slot = .empty ∧ code = .none ∧ data = []) → 1 ≤ count →
      u.link.acked = true ∧ u.link.slot = .empty ∧ u.link.sent.length = count ∧
      ∀ i, i < count → u.link.sent[i]? = some (if i = 0 then code.byte else data.getD (i - 1) 0#8))

/-- The readouts (R84, R116, R160, R185, R189, R200, R204) are answered ACCEPTED with a copy of the state and change nothing
else: STATUS with its 28 bytes, READ-DOMAIN, READ-ENTRY (code 0x32) by index, READ-EXPIRED, READ-REFUSAL and READ-RESULTS. A
domain above 63 and an index above 31 are answered RANGE, and an index with no entry ABSENT. -/
def Obligations.Readouts : Prop :=
  ∀ (f : Frame) (s : State), transferCommand f.addr (0x32#8 :: f.args) = some (.readEntry f) ∧
    (PulseTaken s → SentArgs f [] s → ∃ d, exec (.status f) s = .next (s.answer .accepted d) ∧ d.length = 28 ∧
      leAt d 0 1 = s.cab.cabinet.code ∧
      leAt d 1 1 = (if s.cab.sub = .quiet then 1 else 0) + (if s.seeds.clearPending then 2 else 0) +
        (if s.cab.power = .battery then 4 else 0) + (if s.cab.scrubOn then 8 else 0) +
        (if s.cab.cabinet = .blank then 0 else 16) + (if s.mon.record.valid then 32 else 0) +
        (if s.mon.lid.on then 64 else 0) + (if s.mon.panel.on then 128 else 0) ∧
      leAt d 2 1 = s.cab.bg.op.code ∧ leAt d 3 3 = s.cab.bg.next % 0x1000000 ∧
      leAt d 6 3 = s.cab.bg.completed % 0x1000000 ∧
      (∀ c : Fin 8, s.mon.mode = .focus c → leAt d 9 1 = 1 + 2 * c.val) ∧ (s.mon.mode = .sweep → leAt d 9 1 % 2 = 0) ∧
      leAt d 10 1 = (if s.entry.switchA.on then 1 else 0) + (if s.entry.switchB.on then 2 else 0) +
        4 * s.entry.windowA.state.code + 16 * s.entry.windowB.state.code ∧
      leAt d 11 2 = s.entry.windowA.remaining.toNat ∧ leAt d 13 2 = s.entry.windowB.remaining.toNat ∧
      leAt d 15 1 = (match s.entry.domain with | none => 255 | some x => x.toNat) ∧
      leAt d 16 1 = s.entry.list.length % 256 ∧ leAt d 17 2 = s.entry.limit.toNat ∧ leAt d 19 2 = s.ev.flags.toNat ∧
      leAt d 21 2 = s.ev.enables.toNat ∧ leAt d 23 2 * 65536 = pabBase s.seeds.pab ∧
      leAt d 25 2 = s.run.compare % 65536 ∧ leAt d 27 1 = 0x4C + s.link.strap.toNat) ∧
    (∀ b, PulseTaken s → SentArgs f [b] s →
      (63 < b.toNat → exec (.readDomain f) s = .next (s.answer .range [])) ∧
      (∀ x : DomId, x.toNat = b.toNat → ∃ d, exec (.readDomain f) s = .next (s.answer .accepted d) ∧ d.length = 7 ∧
        leAt d 0 1 = (domState s x).code ∧ leAt d 1 1 = (s.doms[domIx x]).epoch.toNat ∧
        leAt d 2 1 = (if (s.seeds.domains[domIx x]).isSome then 1 else 0) +
          (if (s.doms[domIx x]).staged.isSome then 2 else 0) ∧
        leAt d 3 2 = (s.doms[domIx x]).lease.toNat ∧
        leAt d 5 2 = (match (s.doms[domIx x]).staged with | none => 0 | some n => n.toNat)) ∧
      (31 < b.toNat → exec (.readEntry f) s = .next (s.answer .range [])) ∧
      (b.toNat ≤ 31 → s.entry.list.length ≤ b.toNat → exec (.readEntry f) s = .next (s.answer .absent [])) ∧
      (∀ e, b.toNat ≤ 31 → s.entry.list[b.toNat]? = some e →
        ∃ d, exec (.readEntry f) s = .next (s.answer .accepted d) ∧ d.length = 23 ∧ leAt d 0 1 = e.dom.toNat ∧
          leAt d 1 2 = e.fpn.toNat ∧ leAt d 3 2 = e.bpn.toNat ∧ leAt d 5 1 = e.phase.code ∧
          leAt d 6 1 = (match e.first with | .a => 0 | .b => 1) ∧ leAt d 7 8 = e.firstSet.toNat ∧
          leAt d 15 8 = e.combinedSet.toNat)) ∧
    (SentArgs f [] s →
      (PulseTaken s → ∃ d, exec (.readExpired f) s = .next (s.answer .accepted d) ∧ d.length = 8 ∧
        leAt d 0 8 = s.ev.expired.toNat) ∧
      (s.ev.record = none → exec (.readRefusal f) s = .next (s.answer .accepted (List.replicate 13 0#8))) ∧
      (∀ r, s.ev.record = some r → ∃ d, exec (.readRefusal f) s = .next (s.answer .accepted d) ∧ d.length = 13 ∧
        leAt d 0 1 = (if s.ev.overwritten then 3 else 1) ∧ leAt d 1 1 = r.kind.rank ∧ leAt d 2 1 = r.reason.code ∧
        leAt d 3 1 = r.region.code ∧ leAt d 4 1 = r.dom.toNat ∧
        leAt d 5 1 = (match r.priv with | .kernel => 1 | .app => 0) + (match r.dir with | .write => 2 | .read => 0) ∧
        leAt d 6 4 = frontAddr r.line ∧ leAt d 10 1 = r.tag.toNat ∧ leAt d 11 2 = s.ev.count.toNat) ∧
      (s.mon.history.length ≤ 4 → ∃ d, exec (.readResults f) s = .next (s.answer .accepted d) ∧
        d.length = 1 + 2 * s.mon.history.length ∧ leAt d 0 1 = s.mon.history.length ∧
        ∀ i r, s.mon.history[i]? = some r → leAt d (1 + 2 * i) 1 = r.1.val ∧ leAt d (2 + 2 * i) 1 = r.2.toNat))

/-- CLEAR-EVENTS (code 0x55) clears exactly the flags its marks name and touches no state they report (R188); CLEAR-EXPIRED
clears exactly the marks it names (R189); CLEAR-REFUSAL empties the record and returns the count to 0, leaving REFUSAL set
(R185). Each is answered ACCEPTED and changes nothing else. ALERT is asserted exactly while the main domain works and some
flag is set whose enable is set (R187), with what the last run pulse ended already taken (log entry 9). -/
def Obligations.EventClears : Prop :=
  (∀ (f : Frame) (s : State), transferCommand f.addr (0x55#8 :: f.args) = some (.clearEvents f) ∧
    (∀ b0 b1, PulseTaken s → SentArgs f [b0, b1] s → ∃ flags, exec (.clearEvents f) s =
        .next ({ s with ev := { s.ev with flags := flags } }.answer .accepted []) ∧
      ∀ i, i < 11 → flags.getLsbD i = (s.ev.flags.getLsbD i && !(b1 ++ b0).getLsbD i)) ∧
    (∀ b0 b1 b2 b3 b4 b5 b6 b7, PulseTaken s → SentArgs f [b0, b1, b2, b3, b4, b5, b6, b7] s →
      ∃ marks, exec (.clearExpired f) s = .next ({ s with ev := { s.ev with expired := marks } }.answer .accepted []) ∧
        ∀ i, i < 64 → marks.getLsbD i =
          (s.ev.expired.getLsbD i && !(b7 ++ b6 ++ b5 ++ b4 ++ b3 ++ b2 ++ b1 ++ b0).getLsbD i)) ∧
    (SentArgs f [] s → exec (.clearRefusal f) s = .next ({ s with
      ev := { s.ev with record := none, overwritten := false, count := 0#16 } }.answer .accepted []))) ∧
  (∀ s u : State, Runs pulseRows s u → alertOutput s = alertOutput u) ∧
  ∀ s : State, PulseTaken s → (alertOutput s = true ↔
    live s = true ∧ ∃ i, i < 11 ∧ s.ev.flags.getLsbD i = true ∧ s.ev.enables.getLsbD i = true)

/-- READ-TAMPER answers the record, the test set and the seconds, and empties the test set alone (R158, R204). ACK-TAMPER
(code 0x53) in ZEROED clears the record and every fault count, leaving settings, last codes, history, mesh references and
intervals, positions, test set, seconds and the TAMPER flag; in any other state it is refused STATE (R159). -/
def Obligations.TamperCommands : Prop :=
  ∀ (f : Frame) (s : State), SentArgs f [] s → transferCommand f.addr (0x53#8 :: f.args) = some (.ackTamper f) ∧
    (∃ d, exec (.readTamper f) s = .next ({ s with mon := { s.mon with testSet := 0#21 } }.answer .accepted d) ∧
      d.length = 17 ∧ leAt d 10 3 = s.mon.testSet.toNat ∧ leAt d 13 4 = s.mon.seconds.toNat ∧
      (s.mon.record.valid = false → leAt d 0 1 = 0 ∧ leAt d 1 1 = 255 ∧ leAt d 2 4 = 0 ∧ leAt d 6 3 = 0 ∧
        leAt d 9 1 = 0) ∧
      (∀ cause, s.mon.record.valid = true → s.mon.record.first = some cause →
        leAt d 0 1 = 1 ∧ leAt d 1 1 = cause.num ∧ leAt d 2 4 = s.mon.record.time.toNat ∧
        leAt d 6 3 = s.mon.record.causes.toNat ∧ leAt d 9 1 = s.mon.record.further.toNat)) ∧
    (s.cab.cabinet ≠ .zeroed → exec (.ackTamper f) s = .next (s.answer .state [])) ∧
    (s.cab.cabinet = .zeroed → ∃ m : Monitor, exec (.ackTamper f) s = .next ({ s with mon := m }.answer .accepted []) ∧
      m = { s.mon with channels := m.channels, meshes := m.meshes, record :=
        { valid := false, first := none, time := 0#32, causes := 0#21, further := 0#8 } } ∧
      (∀ i : Fin 8, m.channels[i] = { s.mon.channels[i] with count := 0 }) ∧
      ∀ i : Fin 2, m.meshes[i] = { s.mon.meshes[i] with count := 0 })

/-- COMMISSION and RECOMMISSION (R161, R171 to R173), RESUME (R175) and CLEAR-MAP (code 0x13; R176). A cabinet that is BLANK,
or ZEROED QUIET with no valid record, is commissioned with both switches registered ON and no alarm condition: new root and
domain 0 seeds, no other seed, every domain VACANT under epoch 0, no entry domain and no entry, SWEEP, an empty test set, the
mark set, CLEARING, and the map clear from line 0. RESUME makes RESTORE READY and requests the deferred finalisation.
CLEAR-MAP empties the Entry List and clears the map again under the kept seeds. Every other case is refused as listed and
changes nothing. -/
def Obligations.CabinetCommands : Prop :=
  ∀ (f : Frame) (s : State), SentArgs f [] s → transferCommand f.addr (0x13#8 :: f.args) = some (.clearMap f) ∧
    (∀ c, (c = .commission f ∧ s.cab.cabinet = .blank ∨
          c = .recommission f ∧ s.cab.cabinet = .zeroed ∧ s.cab.sub = .quiet ∧ s.mon.record.valid = false) →
      (s.entry.switchA.on = true → s.entry.switchB.on = true → AlarmCondition s.mon → exec c s = .next (s.answer .state [])) ∧
      (s.entry.switchA.on = false ∨ s.entry.switchB.on = false → exec c s = .next (s.answer .state [])) ∧
      (s.entry.switchA.on = true → s.entry.switchB.on = true → ¬AlarmCondition s.mon →
        ∃ root seed domains, exec c s = .next ({ s with
            seeds := { s.seeds with root := some root, domains := domains, clearPending := true, made := s.seeds.made + 2 }
            doms := Vector.replicate 64 { state := .vacant, epoch := 0#8, lease := 0#16, staged := none, ending := false }
            entry := { s.entry with domain := none, list := [] }
            mon := { s.mon with mode := .sweep, testSet := 0#21 }
            cab := { s.cab with
              cabinet := .clearing
              bg := { op := .mapClear, next := 0, completed := 0, run := s.cab.bg.run + 1 } } }.answer .accepted []) ∧
          domains[(0 : Fin 64)] = some seed ∧ ∀ d : Fin 64, d ≠ 0 → domains[d] = none)) ∧
    (s.cab.cabinet ≠ .blank → exec (.commission f) s = .next (s.answer .state [])) ∧
    (s.cab.cabinet ≠ .zeroed → exec (.recommission f) s = .next (s.answer .state [])) ∧
    (s.cab.cabinet = .zeroed → s.cab.sub = .scrubbing → exec (.recommission f) s = .next (s.answer .busy [])) ∧
    (s.cab.cabinet = .zeroed → s.cab.sub = .quiet → s.mon.record.valid = true →
      exec (.recommission f) s = .next (s.answer .state [])) ∧
    (s.cab.cabinet = .restore →
      exec (.resume f) s = .next ({ s with
        cab := { s.cab with cabinet := .ready }
        entry := { s.entry with waiting := if EntryOp.deferred ∈ s.entry.waiting then s.entry.waiting
                                           else s.entry.waiting ++ [EntryOp.deferred] } }.answer .accepted []) ∧
      exec (.clearMap f) s = .next ({ s with
        cab := { s.cab with
          cabinet := .clearing, bg := { op := .mapClear, next := 0, completed := 0, run := s.cab.bg.run + 1 } }
        seeds := { s.seeds with clearPending := true }
        entry := { s.entry with list := [] } }.answer .accepted [])) ∧
    (s.cab.cabinet ≠ .restore → exec (.resume f) s = .next (s.answer .state []) ∧
      exec (.clearMap f) s = .next (s.answer .state []))

/-- The run commands (R77 to R81). A domain argument of 0 or above 63, and a lease of 0, is refused RANGE; a cabinet
state or a domain state that is not the command's is refused STATE; a refused command changes nothing. ENROL makes a
VACANT domain CLOSED with a seed; OPEN-RUN a CLOSED one OPEN with the lease and no staged extension; EXTEND-RUN stages
an extension of an OPEN one, replacing an earlier one; CLOSE-RUN makes an OPEN one CLOSED and demaps it. No other
domain changes. -/
def Obligations.RunCommands : Prop :=
  ∀ (f : Frame) (s : State) (b : Byte) (d : DomId) (n : BitVec 16), f.args.getD 0 0#8 = b →
    (f.args.length = 3 → n = f.args.getD 2 0#8 ++ f.args.getD 1 0#8) →
    (∀ c, (c = .enrol f ∨ c = .closeRun f ∨ c = .erase f) ∧ Sent f 1 s ∨ (c = .openRun f ∨ c = .extendRun f) ∧ Sent f 3 s →
      (c ≠ .enrol f → PulseTaken s) →
      (b = 0#8 ∨ 63 < b.toNat → exec c s = .next (s.answer .range [])) ∧
      (b.toNat = d.toNat → d ≠ 0#6 → ((c = .openRun f ∨ c = .extendRun f) → n ≠ 0#16) →
        ((c = .enrol f ∨ c = .erase f) ∧ s.cab.cabinet ≠ .ready ∧ s.cab.cabinet ≠ .restore ∨
          (c = .openRun f ∨ c = .extendRun f ∨ c = .closeRun f) ∧ s.cab.cabinet ≠ .ready ∨
          c = .enrol f ∧ s.doms[domIx d].state ≠ .vacant ∨ c = .openRun f ∧ s.doms[domIx d].state ≠ .closed ∨
          (c = .extendRun f ∨ c = .closeRun f) ∧ s.doms[domIx d].state ≠ .opened ∨
          c = .erase f ∧ s.doms[domIx d].state ≠ .closed ∧ s.doms[domIx d].state ≠ .opened) →
        exec c s = .next (s.answer .state []))) ∧
    (PulseTaken s → Sent f 3 s → n = 0#16 → exec (.openRun f) s = .next (s.answer .range []) ∧
      exec (.extendRun f) s = .next (s.answer .range [])) ∧
    (b.toNat = d.toNat → d ≠ 0#6 →
      (Sent f 1 s → s.cab.cabinet = .ready ∨ s.cab.cabinet = .restore → s.doms[domIx d].state = .vacant →
        ∃ (u : State) (seed : Seed), exec (.enrol f) s = .next (u.answer .accepted []) ∧
          u = { s with doms := u.doms, seeds := { s.seeds with domains := u.seeds.domains, made := s.seeds.made + 1 } } ∧
          u.doms[domIx d] = { s.doms[domIx d] with state := .closed } ∧ u.seeds.domains[domIx d] = some seed ∧
          ∀ d', d' ≠ domIx d → u.doms[d'] = s.doms[d'] ∧ u.seeds.domains[d'] = s.seeds.domains[d']) ∧
      (PulseTaken s → Sent f 3 s → n ≠ 0#16 → s.cab.cabinet = .ready →
        (s.doms[domIx d].state = .closed → ∃ u : State, exec (.openRun f) s = .next (u.answer .accepted []) ∧
          u = { s with doms := u.doms } ∧
          u.doms[domIx d] = { s.doms[domIx d] with state := .opened, lease := n, staged := none, ending := false } ∧
          ∀ d', d' ≠ domIx d → u.doms[d'] = s.doms[d']) ∧
        (s.doms[domIx d].state = .opened → ∃ u : State, exec (.extendRun f) s = .next (u.answer .accepted []) ∧
          u = { s with doms := u.doms } ∧ u.doms[domIx d] = { s.doms[domIx d] with staged := some n } ∧
          ∀ d', d' ≠ domIx d → u.doms[d'] = s.doms[d'])) ∧
      (PulseTaken s → Sent f 1 s → s.cab.cabinet = .ready → s.doms[domIx d].state = .opened →
        ∃ u : State, exec (.closeRun f) s = .next (u.answer .accepted []) ∧
          u = { s with
            doms := u.doms
            xlat := { s.xlat with fixed := u.xlat.fixed, sets := u.xlat.sets }
            ev := { s.ev with flags := s.ev.flags ||| LockLostMark (fun p => p.dom == d) s } } ∧
          u.doms[domIx d] = { s.doms[domIx d] with state := .closed, lease := 0#16, staged := none, ending := false } ∧
          (∀ d', d' ≠ domIx d → u.doms[d'] = s.doms[d']) ∧ Demapped (fun p => p.dom == d) s u))

/-- ERASE (R77, R82, R83): BUSY while the Entry List holds an entry of the domain, with nothing changed. Otherwise its
seed is destroyed; below epoch 255 the epoch rises by 1 and the domain is VACANT, at 255 it stays and the domain is
SPENT; lease and staged extension are cleared; no buffer holds a page of it and no retire fill of it is left. No other
domain's record or seed changes, no event but LOCK-LOST is raised, and memory is left as it was. -/
def Obligations.EraseEndsDomain : Prop :=
  ∀ (f : Frame) (s : State) (d : DomId) (b : Byte), PulseTaken s → SentArgs f [b] s → b.toNat = d.toNat → d ≠ 0#6 →
    s.cab.cabinet = .ready ∨ s.cab.cabinet = .restore → s.doms[domIx d].state = .closed ∨ s.doms[domIx d].state = .opened →
    ((∃ e ∈ s.entry.list, e.dom = d) → exec (.erase f) s = .next (s.answer .busy [])) ∧
    ((∀ e ∈ s.entry.list, e.dom ≠ d) → ∃ u : State, exec (.erase f) s = .next (u.answer .accepted []) ∧
      u.seeds = { s.seeds with domains := u.seeds.domains } ∧ u.seeds.domains[domIx d] = none ∧
      (s.doms[domIx d].epoch ≠ 255#8 → u.doms[domIx d] =
        { state := .vacant, epoch := s.doms[domIx d].epoch + 1#8, lease := 0#16, staged := none, ending := false }) ∧
      (s.doms[domIx d].epoch = 255#8 → u.doms[domIx d] =
        { state := .spent, epoch := 255#8, lease := 0#16, staged := none, ending := false }) ∧
      (∀ d', d' ≠ domIx d → u.doms[d'] = s.doms[d'] ∧ u.seeds.domains[d'] = s.seeds.domains[d']) ∧
      Demapped (fun p => p.dom == d) s u ∧ u.xlat.walks = s.xlat.walks ∧ u.xlat.waiting = s.xlat.waiting ∧
      u.maps.fills = s.maps.fills.filter (fun x => x.dom != d) ∧
      (∀ tag, (findSlot u tag).map (fun x => (x.txn, x.phase)) = (findSlot s tag).map fun x => (x.txn, x.phase)) ∧
      u.ev = { s.ev with flags := s.ev.flags ||| LockLostMark (fun p => p.dom == d) s } ∧
      u.mem = s.mem ∧ u.entry = s.entry ∧ u.back.queue = s.back.queue ∧ u.cab = s.cab ∧ u.mon = s.mon ∧ u.run = s.run)

/-- SET-ENTRY (R95) and ABANDON-ENTRY (R113), by the steps of their judgement. The entry domain takes the argument,
NONE for 255, where the cabinet is READY, the domain is CLOSED or OPEN, and, unless it is the entry domain already,
the Entry List is empty and no window is OPEN. ABANDON-ENTRY in READY joins the waiting operations once. -/
def Obligations.EntryCommands : Prop :=
  ∀ (f : Frame) (s : State), PulseTaken s →
    (∀ (b : Byte) (v : Option DomId), SentArgs f [b] s →
      (64 ≤ b.toNat → b.toNat ≤ 254 → exec (.setEntry f) s = .next (s.answer .range [])) ∧
      (v = none ∧ b = 255#8 ∨ (∃ d, v = some d ∧ b.toNat = d.toNat) →
        (s.cab.cabinet ≠ .ready → exec (.setEntry f) s = .next (s.answer .state [])) ∧
        (s.cab.cabinet = .ready → (∃ d, v = some d ∧ domState s d ≠ .closed ∧ domState s d ≠ .opened) →
          exec (.setEntry f) s = .next (s.answer .state [])) ∧
        (s.cab.cabinet = .ready → (∀ d, v = some d → domState s d = .closed ∨ domState s d = .opened) →
          (v = s.entry.domain → exec (.setEntry f) s = .next (s.answer .accepted [])) ∧
          (v ≠ s.entry.domain →
            s.entry.list ≠ [] ∨ s.entry.windowA.state = .opened ∨ s.entry.windowB.state = .opened →
            exec (.setEntry f) s = .next (s.answer .busy [])) ∧
          (v ≠ s.entry.domain → s.entry.list = [] → s.entry.windowA.state ≠ .opened → s.entry.windowB.state ≠ .opened →
            exec (.setEntry f) s =
              .next ({ s with entry := { s.entry with domain := v } }.answer .accepted []))))) ∧
    (SentArgs f [] s →
      (s.cab.cabinet ≠ .ready → exec (.abandonEntry f) s = .next (s.answer .state [])) ∧
      (s.cab.cabinet = .ready → exec (.abandonEntry f) s = .next ({ s with
        entry := { s.entry with waiting := if EntryOp.abandon ∈ s.entry.waiting then s.entry.waiting
                                           else s.entry.waiting ++ [EntryOp.abandon] } }.answer .accepted [])))

/-- LOCK of a pair in range (R67, R68): BUSY while a lock request is held; STATE unless the cabinet is READY and the
domain OPEN; a page in the Fixed Buffer is locked in place; FULL when all 16 entries hold locked pages; a page in the
Set Buffer moves into the Fixed Buffer entry that R55 chooses, locked and used, and its way is emptied with its fields and
the recency mark kept; a page in neither buffer joins a listed walk of its pair as its lock request, or starts a walk that
carries it, and the answer waits; with 4 other walks listed it is BUSY. A walk may start for it while transactions that a
walk released have still to repeat their lookups (log entry 22). -/
def Obligations.LockCommand : Prop :=
  ∀ (f : Frame) (s : State) (b : Byte) (w : BitVec 16) (d : DomId) (p : Fpn), PulseTaken s → Sent f 3 s →
    f.args.getD 0 0#8 = b → w = f.args.getD 2 0#8 ++ f.args.getD 1 0#8 →
    (63 < b.toNat ∨ 16383 < w.toNat → exec (.lock f) s = .next (s.answer .range [])) ∧
    (b.toNat = d.toNat → w.toNat = p.toNat →
      ((∃ v ∈ s.xlat.walks, v.lock = true) → exec (.lock f) s = .next (s.answer .busy [])) ∧
      ((∀ v ∈ s.xlat.walks, v.lock = false) → s.cab.cabinet ≠ .ready ∨ domState s d ≠ .opened →
        exec (.lock f) s = .next (s.answer .state [])) ∧
      ((∀ v ∈ s.xlat.walks, v.lock = false) → s.cab.cabinet = .ready → domState s d = .opened →
        (∀ i, s.xlat.fixedHit d p = some i → ∃ u : State, exec (.lock f) s = .next (u.answer .accepted []) ∧
          u = { s with xlat := { s.xlat with fixed := u.xlat.fixed } } ∧
          u.xlat.fixed[i] = { s.xlat.fixed[i] with lock := true } ∧ ∀ j, j ≠ i → u.xlat.fixed[j] = s.xlat.fixed[j]) ∧
        (s.xlat.fixedHit d p = none →
          (AllLocked s.xlat → exec (.lock f) s = .next (s.answer .full [])) ∧
          (¬AllLocked s.xlat →
            (∀ page, s.xlat.setHit d p = some page →
              ∃ (u : State) (i : Fin 16), exec (.lock f) s = .next (u.answer .accepted []) ∧
                u = { s with xlat := { s.xlat with
                  fixed := u.xlat.fixed
                  sets := (s.xlat.onSet (setIndex d p) fun r => { r with
                    way0 := r.way0.without (Page.isOf d p), way1 := r.way1.without (Page.isOf d p) }).sets } } ∧
                TakesVictim i { held := { valid := true, fields := page }, lock := true, used := true } s.xlat u.xlat) ∧
            (s.xlat.setHit d p = none →
              ((∃ v ∈ s.xlat.walks, v.dom = d ∧ v.fpn = p) → exec (.lock f) s = .next { s with
                xlat := { s.xlat with
                  walks := s.xlat.walks.map fun v => if v.dom = d ∧ v.fpn = p then { v with lock := true } else v }
                link := { s.link with slot := .waiting, acked := true } }) ∧
              ((∀ v ∈ s.xlat.walks, ¬(v.dom = d ∧ v.fpn = p)) →
                (4 ≤ s.xlat.walks.length → exec (.lock f) s = .next (s.answer .busy [])) ∧
                (s.xlat.walks.length < 4 → exec (.lock f) s = .next
                  { s.walkStarted d p [] true with link := { s.link with slot := .waiting, acked := true } })))))))

/-- UNLOCK (code 0x41) clears the lock of a pair's Fixed Buffer entry, keeping page and used mark, and is ABSENT for a pair
that no entry holds (R69). DEMAP-PAGE, DEMAP-DOMAIN and DEMAP-ALL remove the pages they name from both buffers, with
LOCK-LOST for a locked one, the fields of an emptied entry being kept (R50), and leave the Walk List (R63 to R66). An
argument out of range is refused RANGE. Nothing else changes. -/
def Obligations.UnlockAndDemaps : Prop :=
  ∀ (f : Frame) (s : State), transferCommand f.addr (0x41#8 :: f.args) = some (.unlock f) ∧
    (∀ (b : Byte) (w : BitVec 16) (d : DomId) (p : Fpn), Sent f 3 s → f.args.getD 0 0#8 = b →
      w = f.args.getD 2 0#8 ++ f.args.getD 1 0#8 →
      (63 < b.toNat ∨ 16383 < w.toNat →
        (PulseTaken s → exec (.unlock f) s = .next (s.answer .range [])) ∧
        exec (.demapPage f) s = .next (s.answer .range [])) ∧
      (b.toNat = d.toNat → w.toNat = p.toNat →
        (∀ i, PulseTaken s → s.xlat.fixedHit d p = some i → ∃ u : State, exec (.unlock f) s = .next (u.answer .accepted []) ∧
          u = { s with xlat := { s.xlat with fixed := u.xlat.fixed } } ∧
          u.xlat.fixed[i] = { s.xlat.fixed[i] with lock := false } ∧ ∀ j, j ≠ i → u.xlat.fixed[j] = s.xlat.fixed[j]) ∧
        (PulseTaken s → s.xlat.fixedHit d p = none → exec (.unlock f) s = .next (s.answer .absent [])) ∧
        ∃ u : State, exec (.demapPage f) s = .next (u.answer .accepted []) ∧
          u = { s with
            xlat := { s.xlat with fixed := u.xlat.fixed, sets := u.xlat.sets }
            ev := { s.ev with flags := s.ev.flags ||| LockLostMark (fun q => q.dom == d && q.fpn == p) s } } ∧
          Demapped (fun q => q.dom == d && q.fpn == p) s u)) ∧
    (∀ b : Byte, SentArgs f [b] s →
      (63 < b.toNat → exec (.demapDomain f) s = .next (s.answer .range [])) ∧
      ∀ d : DomId, b.toNat = d.toNat → ∃ u : State, exec (.demapDomain f) s = .next (u.answer .accepted []) ∧
        u = { s with
          xlat := { s.xlat with fixed := u.xlat.fixed, sets := u.xlat.sets }
          ev := { s.ev with flags := s.ev.flags ||| LockLostMark (fun q => q.dom == d) s } } ∧
        Demapped (fun q => q.dom == d) s u) ∧
    (SentArgs f [] s → ∃ u : State, exec (.demapAll f) s = .next (u.answer .accepted []) ∧
      u = { s with
        xlat := { s.xlat with fixed := u.xlat.fixed, sets := u.xlat.sets }
        ev := { s.ev with flags := s.ev.flags ||| LockLostMark (fun _ => true) s } } ∧
      (∀ i : Fin 16, u.xlat.fixed[i] = {
        held := { s.xlat.fixed[i].held with valid := false }, lock := false, used := false }) ∧
      ∀ i : Fin 256, u.xlat.sets[i] = {
        way0 := { s.xlat.sets[i].way0 with valid := false }, way1 := { s.xlat.sets[i].way1 with valid := false }
        recentOne := false })

/-- CONFIGURE, item by item (R5, R28, R96, R120, R148 to R150, R163, R187, R201, R202, R204). Each item is taken in
its cabinet states, clamps or rounds its value as its rule gives, and changes its own setting; an item that is none of the
ten (log entry 26), an index above the item's, a PAB that is none of the 16 bases, and an enable, mode or scrub byte that is
neither 0 nor 1 is refused RANGE, and a cabinet state that is not the item's STATE; a sweep goes on after FOCUS from the
focus channel (log entry 34). A change of timing finds an automatic precharge whose clock has come made at that clock, and
one still to come is judged by the new values from the acceptance on (R120; log entry 23). Nothing else changes. -/
def Obligations.ConfigureItems : Prop :=
  ∀ (f : Frame) (s : State) (i : Nat) (v0 v1 v2 v3 v4 v5 : Byte) (n : Nat), n = v0.toNat + 256 * v1.toNat →
    (∀ item, SentItem f item i [v0, v1, v2, v3, v4, v5] s →
      (∀ c own top, (c, own, top) ∈ [(Instr.configurePab f, 1, 0), (Instr.configureBackTiming f, 2, 10),
          (Instr.configurePagePolicy f, 3, 0), (Instr.configureRunCompare f, 4, 0), (Instr.configureEntryLimit f, 5, 0),
          (Instr.configureChannelSettings f, 6, 7), (Instr.configureMeshSettings f, 7, 1),
          (Instr.configureConverterMode f, 8, 7), (Instr.configureScrubSetting f, 9, 0),
          (Instr.configureEventEnables f, 10, 0)] →
        (item = 0 ∨ 10 < item → exec c s = .next (s.answer .range [])) ∧
        (item = own → top < i → exec c s = .next (s.answer .range []))) ∧
      (item = 1 →
        (i = 0 → s.cab.cabinet ≠ .blank → exec (.configurePab f) s = .next (s.answer .state [])) ∧
        (i = 0 → s.cab.cabinet = .blank → n % 2048 ≠ 0 ∨ 30720 < n →
          exec (.configurePab f) s = .next (s.answer .range [])) ∧
        (∀ p : PabIndex, i = 0 → s.cab.cabinet = .blank → n * 65536 = pabBase p →
          exec (.configurePab f) s = .next ({ s with
            seeds := { s.seeds with pab := p }, front := { s.front with pabCopy := p } }.answer .accepted []))) ∧
      (item = 2 →
        (i ≤ 10 → ¬Settable s → exec (.configureBackTiming f) s = .next (s.answer .state [])) ∧
        (i ≤ 10 → Settable s → ∃ (t : Timing) (banks : Vector Bank 16), exec (.configureBackTiming f) s =
            .next ({ s with back := { s.back with timing := t, banks := banks } }.answer .accepted []) ∧
          (∀ (r : Fin 2) (k : Fin 8),
            ((s.back.bank r k).closing = none → banks[bankIx r k] = s.back.bank r k) ∧
            ∀ from' c, (s.back.bank r k).closing = some from' → AutoAt r k from' c s.back →
              banks[bankIx r k] = if c ≤ s.back.clock then { s.back.bank r k with
                row := none, lastPre := some c, closing := none }
              else { s.back.bank r k with closing := some (max from' s.back.clock) }) ∧
          t.tRCD = (if i = 0 then min 15 (max 2 n) else s.back.timing.tRCD) ∧
          t.tRP = (if i = 1 then min 15 (max 2 n) else s.back.timing.tRP) ∧
          t.tRAS = (if i = 2 then min 40 (max 4 n) else s.back.timing.tRAS) ∧
          t.tRRD = (if i = 3 then min 15 (max 2 n) else s.back.timing.tRRD) ∧
          t.tFAW = (if i = 4 then min 63 (max 8 n) else s.back.timing.tFAW) ∧
          t.rl = (if i = 5 then min 15 (max 3 n) else s.back.timing.rl) ∧
          t.tWR = (if i = 6 then min 15 (max 2 n) else s.back.timing.tWR) ∧
          t.tWTR = (if i = 7 then min 15 (max 2 n) else s.back.timing.tWTR) ∧
          t.tRTP = (if i = 8 then min 15 (max 2 n) else s.back.timing.tRTP) ∧
          t.tRFC = (if i = 9 then min 255 (max 20 n) else s.back.timing.tRFC) ∧
          t.tREFI = (if i = 10 then min 16383 (max 1000 n) else s.back.timing.tREFI) ∧
          t.tIDLE = s.back.timing.tIDLE)) ∧
      (item = 3 → i = 0 →
        (¬Settable s → exec (.configurePagePolicy f) s = .next (s.answer .state [])) ∧
        (Settable s → exec (.configurePagePolicy f) s = .next ({ s with
          back := { s.back with timing := { s.back.timing with tIDLE := min 255 n } } }.answer .accepted []))) ∧
      (item = 4 → i = 0 → exec (.configureRunCompare f) s = .next ({ s with
        run := { counter := 0, compare := min 4095 (max 1 n) } }.answer .accepted [])) ∧
      (item = 5 → i = 0 → ∃ limit : BitVec 16, limit.toNat = max 1 n ∧ exec (.configureEntryLimit f) s = .next ({ s with
        entry := { s.entry with limit := limit } }.answer .accepted [])) ∧
      (item = 6 →
        (i ≤ 7 → ¬Settable s → exec (.configureChannelSettings f) s = .next (s.answer .state [])) ∧
        (i ≤ 7 → Settable s → 1 < v0.toNat → exec (.configureChannelSettings f) s = .next (s.answer .range [])) ∧
        (∀ c : Fin 8, c.val = i → Settable s → v0.toNat ≤ 1 → ∃ m : Monitor, exec (.configureChannelSettings f) s =
            .next ({ s with mon := m }.answer .accepted []) ∧ m = { s.mon with channels := m.channels } ∧
          m.channels[c] = { s.mon.channels[c] with
            enable := decide (v0 = 1#8), low := if v2 < v1 then v2 else v1, high := v2
            depth := min 15 (max 1 v3.toNat), count := 0 } ∧
          ∀ j, j ≠ c → m.channels[j] = s.mon.channels[j])) ∧
      (item = 7 →
        (i ≤ 1 → ¬Settable s → exec (.configureMeshSettings f) s = .next (s.answer .state [])) ∧
        (i ≤ 1 → Settable s → 1 < v0.toNat → exec (.configureMeshSettings f) s = .next (s.answer .range [])) ∧
        (∀ (c : Fin 2) (period : Nat), c.val = i → Settable s → v0.toNat ≤ 1 →
          period = min 1022 (max 16 (v1.toNat + 256 * v2.toNat)) / 2 * 2 →
          ∃ m : Monitor, exec (.configureMeshSettings f) s =
              .next ({ s with mon := m }.answer .accepted []) ∧ m = { s.mon with meshes := m.meshes } ∧
            m.meshes[c] = { s.mon.meshes[c] with
              enable := decide (v0 = 1#8), period := period, dead := min (period / 4) (max 1 v3.toNat)
              tol := min 63 (max 1 v4.toNat), depth := min 15 (max 1 v5.toNat), phase := 0, interval := 0
              referenced := false, count := 0 } ∧
            ∀ j, j ≠ c → m.meshes[j] = s.mon.meshes[j])) ∧
      (item = 8 → ∀ c : Fin 8, c.val = i →
        (1 < v0.toNat → exec (.configureConverterMode f) s = .next (s.answer .range [])) ∧
        (v0 = 0#8 → i ≠ 0 → exec (.configureConverterMode f) s = .next (s.answer .range [])) ∧
        (v0 = 0#8 → i = 0 → ∃ m : Monitor, exec (.configureConverterMode f) s =
            .next ({ s with mon := m }.answer .accepted []) ∧
          m = { s.mon with mode := .sweep, lastConv := m.lastConv } ∧
          (s.mon.mode = .sweep → m.lastConv = s.mon.lastConv) ∧ ∀ c', s.mon.mode = .focus c' → m.lastConv = some c') ∧
        (v0 = 1#8 → ¬Settable s → exec (.configureConverterMode f) s = .next (s.answer .state [])) ∧
        (v0 = 1#8 → Settable s → exec (.configureConverterMode f) s =
          .next ({ s with mon := { s.mon with mode := .focus c } }.answer .accepted []))) ∧
      (item = 9 → i = 0 →
        (1 < v0.toNat → exec (.configureScrubSetting f) s = .next (s.answer .range [])) ∧
        (v0.toNat ≤ 1 → exec (.configureScrubSetting f) s =
          .next ({ s with cab := { s.cab with scrubOn := decide (v0 = 1#8) } }.answer .accepted []))) ∧
      (item = 10 → i = 0 → ∃ marks, exec (.configureEventEnables f) s =
          .next ({ s with ev := { s.ev with enables := marks } }.answer .accepted []) ∧
        ∀ j, j < 11 → marks.getLsbD j = (v1 ++ v0).getLsbD j))

/-! ## Laws that every step keeps -/

/-- Back memory keeps its canonical form through every step: addresses strictly rising, and no cell that holds what an
unlisted address reads as. -/
def Obligations.MemoryLawKept : Prop := ∀ s t : State, s.mem.wf → StepsTo s t → t.mem.wf

/-- Every step keeps the laws of keys: the clear-pending mark stands exactly in CLEARING, the root and domain 0 seeds
exactly in CLEARING, RESTORE and READY, a map clear runs in CLEARING alone and a scrub in ZEROED SCRUBBING alone,
neither without power (R73, R74, R163, R164); an issuer domain has a seed exactly while CLOSED or OPEN, and a lease and a
staged extension, neither of them 0, only while OPEN, in READY on mains (R72, R79); domain 0's record keeps epoch 0, no
lease and no extension (R72). -/
def Obligations.KeyLawsKept : Prop :=
  ∀ s t : State, CabinetLaw s → DomainLaw s → StepsTo s t → CabinetLaw t ∧ DomainLaw t

/-- Every step keeps the bounds of the lists: at most 16 outstanding transactions, no two with one tag (R2, R3); at
most 24 requests in the Back Queue and 4 in service (R129, R133); at most 32 entries in the Entry List, none for one
page twice, all of the entry domain and each with its combined-line set within its first-line set (R101); at most 8 updates,
none for one map line twice (R33); at most 48 fills, listed or with a place held (R36, R44); at most 4 walks, none for one
pair twice (R57). Every FOLLOWING transaction has an older outstanding one to its line (R8, R14), and a map line waits for
fill room, and a maker to enter the Back Queue, once, each with its Update List entry as it should be (R36, R131). -/
def Obligations.ListLawsKept : Prop :=
  ∀ s t : State, SlotLaw s → QueueLaw s → EntryLaw s → UpdateLaw s → FillLaw s → WalkLaw s → FollowingLaw s →
    MapLaw s → StepsTo s t →
    SlotLaw t ∧ QueueLaw t ∧ EntryLaw t ∧ UpdateLaw t ∧ FillLaw t ∧ WalkLaw t ∧ FollowingLaw t ∧ MapLaw t

/-- Every step keeps the laws of the buffers (R51): a pair is held at most once in the two buffers together, and nowhere
while its walk is in flight; every page held is of a domain that is OPEN, and no page of a domain is held when its epoch has
changed; a Set Buffer page is in the set that R23 gives it and of a DATA class (R50, R53). -/
def Obligations.BufferLawKept : Prop :=
  ∀ s t : State, CabinetLaw s → DomainLaw s → WalkLaw s → BufferLaw s → StepsTo s t →
    BufferLaw t ∧ ∀ d : Fin 64, t.doms[d].epoch ≠ s.doms[d].epoch → ∀ p ∈ buffered t.xlat, domIx p.dom ≠ d

/-! ## Steps on an empty queue -/

/-- With no command waiting the machine takes what arrives (log entries 6, 7, 17), and idles when nothing does. The end of
a write transfer puts the command of its bytes into the queue; one with no byte after its address leaves the answer slot as
it stands (R193). An edge of the back clock moves the clock by 1 and the refresh timers with it, and has every return to 0
taken (R126). An edge of the mesh clock counts the mesh intervals (R152); every eighth is a monitor clock: the run counter
rises to C and has a pulse produced there (R27), the switched inputs are sampled and the 64th differing sample has its change
registered (R94, R154), the pace counts on battery and has a conversion made at 7, on mains at each (R145), and 4096 clocks
make a second (R156). Nothing else changes but the queue of commands that are then due. -/
def Obligations.EmptyQueueSteps : Prop :=
  ∀ (s : State) (rest : List Arrival), s.pending = [] →
    (s.arrivals = [] → step s = .next s) ∧
    (∀ addr, s.arrivals = .transfer addr [] :: rest → step s = .next { s with
      arrivals := rest, link := { s.link with acked := decide (live s = true ∧ addr = linkAddress s) } }) ∧
    (∀ addr bytes c, s.arrivals = .transfer addr bytes :: rest → transferCommand addr bytes = some c →
      step s = .next { s with arrivals := rest, pending := [c] }) ∧
    (s.arrivals = .back :: rest → live s = false → step s = .next { s with arrivals := rest }) ∧
    (s.arrivals = .back :: rest → live s = true → ∃ u, step s = .next u ∧ TimersOnly s u ∧
      u = { s with
        arrivals := rest, pending := u.pending
        back := { s.back with clock := s.back.clock + 1, ranks := u.back.ranks } } ∧
      (s.back.startUp = none → ∀ r, u.pending.count (.refreshAccrual r) = u.back.ranks[r].accrued) ∧
      ∃ before after, u.pending = before ++ [Instr.activation u.back.clock, Instr.precharge u.back.clock,
        Instr.columnCommand u.back.clock, Instr.refresh u.back.clock] ++ after) ∧
    ∀ x : Inputs, s.arrivals = .mesh x :: rest → ∃ u, step s = .next u ∧
      (∀ m : Fin 2, u.mon.meshes[m] = if s.mon.meshes[m].enable = true then { s.mon.meshes[m] with
          interval := min (s.mon.meshes[m].interval + 1) (s.mon.meshes[m].period + s.mon.meshes[m].tol + 1) }
        else s.mon.meshes[m]) ∧
      u.mon.meshClocks = (s.mon.meshClocks + 1) % 8 ∧
      (∀ m : Fin 2, Instr.meshDrivePhase m ∈ u.pending ∧
        (Instr.meshCrossing m ∈ u.pending ↔ x.crosses m = true) ∧
        (Instr.meshMiss m ∈ u.pending ↔ x.crosses m = false ∧ s.mon.meshes[m].enable = true ∧
          s.mon.meshes[m].period + s.mon.meshes[m].tol ≤ s.mon.meshes[m].interval)) ∧
      (s.mon.meshClocks ≠ 7 → u = { s with
        arrivals := rest, pending := u.pending
        mon := { s.mon with meshes := u.mon.meshes, meshClocks := u.mon.meshClocks } }) ∧
      (s.mon.meshClocks = 7 → u = { s with
          arrivals := rest, pending := u.pending, run := u.run
          entry := { s.entry with switchA := u.entry.switchA, switchB := u.entry.switchB }
          mon := { s.mon with
            meshes := u.mon.meshes, meshClocks := 0, lid := u.mon.lid, panel := u.mon.panel
            secondClocks := min (s.mon.secondClocks + 1) 4095, pace := u.mon.pace } } ∧
        (live s = true → s.run.counter ≠ s.run.compare → u.run = { s.run with counter := s.run.counter + 1 }) ∧
        (live s = false ∨ s.run.counter = s.run.compare → u.run = s.run) ∧
        (Instr.runPulse ∈ u.pending ↔ live s = true ∧ s.run.counter = s.run.compare) ∧
        Sampled x.custA s.entry.switchA u.entry.switchA ∧ Sampled x.custB s.entry.switchB u.entry.switchB ∧
        Sampled x.lidOpen s.mon.lid u.mon.lid ∧ Sampled x.panelPressed s.mon.panel u.mon.panel ∧
        (Instr.registeredSwitchOn .a ∈ u.pending ↔ x.custA = true ∧ Registers x.custA s.entry.switchA) ∧
        (Instr.registeredSwitchOff .a ∈ u.pending ↔ x.custA = false ∧ Registers x.custA s.entry.switchA) ∧
        (Instr.registeredSwitchOn .b ∈ u.pending ↔ x.custB = true ∧ Registers x.custB s.entry.switchB) ∧
        (Instr.registeredSwitchOff .b ∈ u.pending ↔ x.custB = false ∧ Registers x.custB s.entry.switchB) ∧
        (Instr.lidRegistered x.lidOpen ∈ u.pending ↔ Registers x.lidOpen s.mon.lid) ∧
        (Instr.panelRegistered x.panelPressed ∈ u.pending ↔ Registers x.panelPressed s.mon.panel) ∧
        (Instr.monitorSecond ∈ u.pending ↔ s.mon.secondClocks = 4095) ∧
        (s.cab.power = .mains → u.mon.pace = s.mon.pace) ∧
        (s.cab.power = .battery → u.mon.pace = if s.mon.pace = 7 then 0 else s.mon.pace + 1) ∧
        ∀ c, s.mon.nextChannel = some c →
          (Instr.conversion x.analog[c] ∈ u.pending ↔ s.cab.power = .mains ∨ s.mon.pace = 7))

end
end

