-- ==== Sys2Proof/Laws/State.lean ====
section
/-! SUPPORT. What each update of one block does to each field of the state: the updated field takes the function's value,
every other field is as it was. -/

namespace Sys2Proof.Machine

variable (s : State)

@[simp] theorem State.onFront_front (h : FrontPort → FrontPort) : (s.onFront h).front = h s.front := rfl
@[simp] theorem State.onFront_xlat (h : FrontPort → FrontPort) : (s.onFront h).xlat = s.xlat := rfl
@[simp] theorem State.onFront_maps (h : FrontPort → FrontPort) : (s.onFront h).maps = s.maps := rfl
@[simp] theorem State.onFront_doms (h : FrontPort → FrontPort) : (s.onFront h).doms = s.doms := rfl
@[simp] theorem State.onFront_seeds (h : FrontPort → FrontPort) : (s.onFront h).seeds = s.seeds := rfl
@[simp] theorem State.onFront_entry (h : FrontPort → FrontPort) : (s.onFront h).entry = s.entry := rfl
@[simp] theorem State.onFront_run (h : FrontPort → FrontPort) : (s.onFront h).run = s.run := rfl
@[simp] theorem State.onFront_back (h : FrontPort → FrontPort) : (s.onFront h).back = s.back := rfl
@[simp] theorem State.onFront_mon (h : FrontPort → FrontPort) : (s.onFront h).mon = s.mon := rfl
@[simp] theorem State.onFront_cab (h : FrontPort → FrontPort) : (s.onFront h).cab = s.cab := rfl
@[simp] theorem State.onFront_ev (h : FrontPort → FrontPort) : (s.onFront h).ev = s.ev := rfl
@[simp] theorem State.onFront_link (h : FrontPort → FrontPort) : (s.onFront h).link = s.link := rfl
@[simp] theorem State.onFront_mem (h : FrontPort → FrontPort) : (s.onFront h).mem = s.mem := rfl
@[simp] theorem State.onFront_pending (h : FrontPort → FrontPort) : (s.onFront h).pending = s.pending := rfl
@[simp] theorem State.onFront_arrivals (h : FrontPort → FrontPort) : (s.onFront h).arrivals = s.arrivals := rfl
@[simp] theorem State.onFront_onFront (h k : FrontPort → FrontPort) : (s.onFront h).onFront k = s.onFront fun x => k (h x) := rfl

@[simp] theorem State.onXlat_front (h : Translation → Translation) : (s.onXlat h).front = s.front := rfl
@[simp] theorem State.onXlat_xlat (h : Translation → Translation) : (s.onXlat h).xlat = h s.xlat := rfl
@[simp] theorem State.onXlat_maps (h : Translation → Translation) : (s.onXlat h).maps = s.maps := rfl
@[simp] theorem State.onXlat_doms (h : Translation → Translation) : (s.onXlat h).doms = s.doms := rfl
@[simp] theorem State.onXlat_seeds (h : Translation → Translation) : (s.onXlat h).seeds = s.seeds := rfl
@[simp] theorem State.onXlat_entry (h : Translation → Translation) : (s.onXlat h).entry = s.entry := rfl
@[simp] theorem State.onXlat_run (h : Translation → Translation) : (s.onXlat h).run = s.run := rfl
@[simp] theorem State.onXlat_back (h : Translation → Translation) : (s.onXlat h).back = s.back := rfl
@[simp] theorem State.onXlat_mon (h : Translation → Translation) : (s.onXlat h).mon = s.mon := rfl
@[simp] theorem State.onXlat_cab (h : Translation → Translation) : (s.onXlat h).cab = s.cab := rfl
@[simp] theorem State.onXlat_ev (h : Translation → Translation) : (s.onXlat h).ev = s.ev := rfl
@[simp] theorem State.onXlat_link (h : Translation → Translation) : (s.onXlat h).link = s.link := rfl
@[simp] theorem State.onXlat_mem (h : Translation → Translation) : (s.onXlat h).mem = s.mem := rfl
@[simp] theorem State.onXlat_pending (h : Translation → Translation) : (s.onXlat h).pending = s.pending := rfl
@[simp] theorem State.onXlat_arrivals (h : Translation → Translation) : (s.onXlat h).arrivals = s.arrivals := rfl
@[simp] theorem State.onXlat_onXlat (h k : Translation → Translation) : (s.onXlat h).onXlat k = s.onXlat fun x => k (h x) := rfl

@[simp] theorem State.onMaps_front (h : MapUnit → MapUnit) : (s.onMaps h).front = s.front := rfl
@[simp] theorem State.onMaps_xlat (h : MapUnit → MapUnit) : (s.onMaps h).xlat = s.xlat := rfl
@[simp] theorem State.onMaps_maps (h : MapUnit → MapUnit) : (s.onMaps h).maps = h s.maps := rfl
@[simp] theorem State.onMaps_doms (h : MapUnit → MapUnit) : (s.onMaps h).doms = s.doms := rfl
@[simp] theorem State.onMaps_seeds (h : MapUnit → MapUnit) : (s.onMaps h).seeds = s.seeds := rfl
@[simp] theorem State.onMaps_entry (h : MapUnit → MapUnit) : (s.onMaps h).entry = s.entry := rfl
@[simp] theorem State.onMaps_run (h : MapUnit → MapUnit) : (s.onMaps h).run = s.run := rfl
@[simp] theorem State.onMaps_back (h : MapUnit → MapUnit) : (s.onMaps h).back = s.back := rfl
@[simp] theorem State.onMaps_mon (h : MapUnit → MapUnit) : (s.onMaps h).mon = s.mon := rfl
@[simp] theorem State.onMaps_cab (h : MapUnit → MapUnit) : (s.onMaps h).cab = s.cab := rfl
@[simp] theorem State.onMaps_ev (h : MapUnit → MapUnit) : (s.onMaps h).ev = s.ev := rfl
@[simp] theorem State.onMaps_link (h : MapUnit → MapUnit) : (s.onMaps h).link = s.link := rfl
@[simp] theorem State.onMaps_mem (h : MapUnit → MapUnit) : (s.onMaps h).mem = s.mem := rfl
@[simp] theorem State.onMaps_pending (h : MapUnit → MapUnit) : (s.onMaps h).pending = s.pending := rfl
@[simp] theorem State.onMaps_arrivals (h : MapUnit → MapUnit) : (s.onMaps h).arrivals = s.arrivals := rfl
@[simp] theorem State.onMaps_onMaps (h k : MapUnit → MapUnit) : (s.onMaps h).onMaps k = s.onMaps fun x => k (h x) := rfl

@[simp] theorem State.onDoms_front (h : Vector DomRec 64 → Vector DomRec 64) : (s.onDoms h).front = s.front := rfl
@[simp] theorem State.onDoms_xlat (h : Vector DomRec 64 → Vector DomRec 64) : (s.onDoms h).xlat = s.xlat := rfl
@[simp] theorem State.onDoms_maps (h : Vector DomRec 64 → Vector DomRec 64) : (s.onDoms h).maps = s.maps := rfl
@[simp] theorem State.onDoms_doms (h : Vector DomRec 64 → Vector DomRec 64) : (s.onDoms h).doms = h s.doms := rfl
@[simp] theorem State.onDoms_seeds (h : Vector DomRec 64 → Vector DomRec 64) : (s.onDoms h).seeds = s.seeds := rfl
@[simp] theorem State.onDoms_entry (h : Vector DomRec 64 → Vector DomRec 64) : (s.onDoms h).entry = s.entry := rfl
@[simp] theorem State.onDoms_run (h : Vector DomRec 64 → Vector DomRec 64) : (s.onDoms h).run = s.run := rfl
@[simp] theorem State.onDoms_back (h : Vector DomRec 64 → Vector DomRec 64) : (s.onDoms h).back = s.back := rfl
@[simp] theorem State.onDoms_mon (h : Vector DomRec 64 → Vector DomRec 64) : (s.onDoms h).mon = s.mon := rfl
@[simp] theorem State.onDoms_cab (h : Vector DomRec 64 → Vector DomRec 64) : (s.onDoms h).cab = s.cab := rfl
@[simp] theorem State.onDoms_ev (h : Vector DomRec 64 → Vector DomRec 64) : (s.onDoms h).ev = s.ev := rfl
@[simp] theorem State.onDoms_link (h : Vector DomRec 64 → Vector DomRec 64) : (s.onDoms h).link = s.link := rfl
@[simp] theorem State.onDoms_mem (h : Vector DomRec 64 → Vector DomRec 64) : (s.onDoms h).mem = s.mem := rfl
@[simp] theorem State.onDoms_pending (h : Vector DomRec 64 → Vector DomRec 64) : (s.onDoms h).pending = s.pending := rfl
@[simp] theorem State.onDoms_arrivals (h : Vector DomRec 64 → Vector DomRec 64) : (s.onDoms h).arrivals = s.arrivals := rfl
@[simp] theorem State.onDoms_onDoms (h k : Vector DomRec 64 → Vector DomRec 64) : (s.onDoms h).onDoms k = s.onDoms fun x => k (h x) := rfl

@[simp] theorem State.onSeeds_front (h : SeedStore → SeedStore) : (s.onSeeds h).front = s.front := rfl
@[simp] theorem State.onSeeds_xlat (h : SeedStore → SeedStore) : (s.onSeeds h).xlat = s.xlat := rfl
@[simp] theorem State.onSeeds_maps (h : SeedStore → SeedStore) : (s.onSeeds h).maps = s.maps := rfl
@[simp] theorem State.onSeeds_doms (h : SeedStore → SeedStore) : (s.onSeeds h).doms = s.doms := rfl
@[simp] theorem State.onSeeds_seeds (h : SeedStore → SeedStore) : (s.onSeeds h).seeds = h s.seeds := rfl
@[simp] theorem State.onSeeds_entry (h : SeedStore → SeedStore) : (s.onSeeds h).entry = s.entry := rfl
@[simp] theorem State.onSeeds_run (h : SeedStore → SeedStore) : (s.onSeeds h).run = s.run := rfl
@[simp] theorem State.onSeeds_back (h : SeedStore → SeedStore) : (s.onSeeds h).back = s.back := rfl
@[simp] theorem State.onSeeds_mon (h : SeedStore → SeedStore) : (s.onSeeds h).mon = s.mon := rfl
@[simp] theorem State.onSeeds_cab (h : SeedStore → SeedStore) : (s.onSeeds h).cab = s.cab := rfl
@[simp] theorem State.onSeeds_ev (h : SeedStore → SeedStore) : (s.onSeeds h).ev = s.ev := rfl
@[simp] theorem State.onSeeds_link (h : SeedStore → SeedStore) : (s.onSeeds h).link = s.link := rfl
@[simp] theorem State.onSeeds_mem (h : SeedStore → SeedStore) : (s.onSeeds h).mem = s.mem := rfl
@[simp] theorem State.onSeeds_pending (h : SeedStore → SeedStore) : (s.onSeeds h).pending = s.pending := rfl
@[simp] theorem State.onSeeds_arrivals (h : SeedStore → SeedStore) : (s.onSeeds h).arrivals = s.arrivals := rfl
@[simp] theorem State.onSeeds_onSeeds (h k : SeedStore → SeedStore) : (s.onSeeds h).onSeeds k = s.onSeeds fun x => k (h x) := rfl

@[simp] theorem State.onEntry_front (h : EntryUnit → EntryUnit) : (s.onEntry h).front = s.front := rfl
@[simp] theorem State.onEntry_xlat (h : EntryUnit → EntryUnit) : (s.onEntry h).xlat = s.xlat := rfl
@[simp] theorem State.onEntry_maps (h : EntryUnit → EntryUnit) : (s.onEntry h).maps = s.maps := rfl
@[simp] theorem State.onEntry_doms (h : EntryUnit → EntryUnit) : (s.onEntry h).doms = s.doms := rfl
@[simp] theorem State.onEntry_seeds (h : EntryUnit → EntryUnit) : (s.onEntry h).seeds = s.seeds := rfl
@[simp] theorem State.onEntry_entry (h : EntryUnit → EntryUnit) : (s.onEntry h).entry = h s.entry := rfl
@[simp] theorem State.onEntry_run (h : EntryUnit → EntryUnit) : (s.onEntry h).run = s.run := rfl
@[simp] theorem State.onEntry_back (h : EntryUnit → EntryUnit) : (s.onEntry h).back = s.back := rfl
@[simp] theorem State.onEntry_mon (h : EntryUnit → EntryUnit) : (s.onEntry h).mon = s.mon := rfl
@[simp] theorem State.onEntry_cab (h : EntryUnit → EntryUnit) : (s.onEntry h).cab = s.cab := rfl
@[simp] theorem State.onEntry_ev (h : EntryUnit → EntryUnit) : (s.onEntry h).ev = s.ev := rfl
@[simp] theorem State.onEntry_link (h : EntryUnit → EntryUnit) : (s.onEntry h).link = s.link := rfl
@[simp] theorem State.onEntry_mem (h : EntryUnit → EntryUnit) : (s.onEntry h).mem = s.mem := rfl
@[simp] theorem State.onEntry_pending (h : EntryUnit → EntryUnit) : (s.onEntry h).pending = s.pending := rfl
@[simp] theorem State.onEntry_arrivals (h : EntryUnit → EntryUnit) : (s.onEntry h).arrivals = s.arrivals := rfl
@[simp] theorem State.onEntry_onEntry (h k : EntryUnit → EntryUnit) : (s.onEntry h).onEntry k = s.onEntry fun x => k (h x) := rfl

@[simp] theorem State.onRun_front (h : RunClock → RunClock) : (s.onRun h).front = s.front := rfl
@[simp] theorem State.onRun_xlat (h : RunClock → RunClock) : (s.onRun h).xlat = s.xlat := rfl
@[simp] theorem State.onRun_maps (h : RunClock → RunClock) : (s.onRun h).maps = s.maps := rfl
@[simp] theorem State.onRun_doms (h : RunClock → RunClock) : (s.onRun h).doms = s.doms := rfl
@[simp] theorem State.onRun_seeds (h : RunClock → RunClock) : (s.onRun h).seeds = s.seeds := rfl
@[simp] theorem State.onRun_entry (h : RunClock → RunClock) : (s.onRun h).entry = s.entry := rfl
@[simp] theorem State.onRun_run (h : RunClock → RunClock) : (s.onRun h).run = h s.run := rfl
@[simp] theorem State.onRun_back (h : RunClock → RunClock) : (s.onRun h).back = s.back := rfl
@[simp] theorem State.onRun_mon (h : RunClock → RunClock) : (s.onRun h).mon = s.mon := rfl
@[simp] theorem State.onRun_cab (h : RunClock → RunClock) : (s.onRun h).cab = s.cab := rfl
@[simp] theorem State.onRun_ev (h : RunClock → RunClock) : (s.onRun h).ev = s.ev := rfl
@[simp] theorem State.onRun_link (h : RunClock → RunClock) : (s.onRun h).link = s.link := rfl
@[simp] theorem State.onRun_mem (h : RunClock → RunClock) : (s.onRun h).mem = s.mem := rfl
@[simp] theorem State.onRun_pending (h : RunClock → RunClock) : (s.onRun h).pending = s.pending := rfl
@[simp] theorem State.onRun_arrivals (h : RunClock → RunClock) : (s.onRun h).arrivals = s.arrivals := rfl
@[simp] theorem State.onRun_onRun (h k : RunClock → RunClock) : (s.onRun h).onRun k = s.onRun fun x => k (h x) := rfl

@[simp] theorem State.onBack_front (h : BackCtl → BackCtl) : (s.onBack h).front = s.front := rfl
@[simp] theorem State.onBack_xlat (h : BackCtl → BackCtl) : (s.onBack h).xlat = s.xlat := rfl
@[simp] theorem State.onBack_maps (h : BackCtl → BackCtl) : (s.onBack h).maps = s.maps := rfl
@[simp] theorem State.onBack_doms (h : BackCtl → BackCtl) : (s.onBack h).doms = s.doms := rfl
@[simp] theorem State.onBack_seeds (h : BackCtl → BackCtl) : (s.onBack h).seeds = s.seeds := rfl
@[simp] theorem State.onBack_entry (h : BackCtl → BackCtl) : (s.onBack h).entry = s.entry := rfl
@[simp] theorem State.onBack_run (h : BackCtl → BackCtl) : (s.onBack h).run = s.run := rfl
@[simp] theorem State.onBack_back (h : BackCtl → BackCtl) : (s.onBack h).back = h s.back := rfl
@[simp] theorem State.onBack_mon (h : BackCtl → BackCtl) : (s.onBack h).mon = s.mon := rfl
@[simp] theorem State.onBack_cab (h : BackCtl → BackCtl) : (s.onBack h).cab = s.cab := rfl
@[simp] theorem State.onBack_ev (h : BackCtl → BackCtl) : (s.onBack h).ev = s.ev := rfl
@[simp] theorem State.onBack_link (h : BackCtl → BackCtl) : (s.onBack h).link = s.link := rfl
@[simp] theorem State.onBack_mem (h : BackCtl → BackCtl) : (s.onBack h).mem = s.mem := rfl
@[simp] theorem State.onBack_pending (h : BackCtl → BackCtl) : (s.onBack h).pending = s.pending := rfl
@[simp] theorem State.onBack_arrivals (h : BackCtl → BackCtl) : (s.onBack h).arrivals = s.arrivals := rfl
@[simp] theorem State.onBack_onBack (h k : BackCtl → BackCtl) : (s.onBack h).onBack k = s.onBack fun x => k (h x) := rfl

@[simp] theorem State.onMon_front (h : Monitor → Monitor) : (s.onMon h).front = s.front := rfl
@[simp] theorem State.onMon_xlat (h : Monitor → Monitor) : (s.onMon h).xlat = s.xlat := rfl
@[simp] theorem State.onMon_maps (h : Monitor → Monitor) : (s.onMon h).maps = s.maps := rfl
@[simp] theorem State.onMon_doms (h : Monitor → Monitor) : (s.onMon h).doms = s.doms := rfl
@[simp] theorem State.onMon_seeds (h : Monitor → Monitor) : (s.onMon h).seeds = s.seeds := rfl
@[simp] theorem State.onMon_entry (h : Monitor → Monitor) : (s.onMon h).entry = s.entry := rfl
@[simp] theorem State.onMon_run (h : Monitor → Monitor) : (s.onMon h).run = s.run := rfl
@[simp] theorem State.onMon_back (h : Monitor → Monitor) : (s.onMon h).back = s.back := rfl
@[simp] theorem State.onMon_mon (h : Monitor → Monitor) : (s.onMon h).mon = h s.mon := rfl
@[simp] theorem State.onMon_cab (h : Monitor → Monitor) : (s.onMon h).cab = s.cab := rfl
@[simp] theorem State.onMon_ev (h : Monitor → Monitor) : (s.onMon h).ev = s.ev := rfl
@[simp] theorem State.onMon_link (h : Monitor → Monitor) : (s.onMon h).link = s.link := rfl
@[simp] theorem State.onMon_mem (h : Monitor → Monitor) : (s.onMon h).mem = s.mem := rfl
@[simp] theorem State.onMon_pending (h : Monitor → Monitor) : (s.onMon h).pending = s.pending := rfl
@[simp] theorem State.onMon_arrivals (h : Monitor → Monitor) : (s.onMon h).arrivals = s.arrivals := rfl
@[simp] theorem State.onMon_onMon (h k : Monitor → Monitor) : (s.onMon h).onMon k = s.onMon fun x => k (h x) := rfl

@[simp] theorem State.onCab_front (h : StateUnit → StateUnit) : (s.onCab h).front = s.front := rfl
@[simp] theorem State.onCab_xlat (h : StateUnit → StateUnit) : (s.onCab h).xlat = s.xlat := rfl
@[simp] theorem State.onCab_maps (h : StateUnit → StateUnit) : (s.onCab h).maps = s.maps := rfl
@[simp] theorem State.onCab_doms (h : StateUnit → StateUnit) : (s.onCab h).doms = s.doms := rfl
@[simp] theorem State.onCab_seeds (h : StateUnit → StateUnit) : (s.onCab h).seeds = s.seeds := rfl
@[simp] theorem State.onCab_entry (h : StateUnit → StateUnit) : (s.onCab h).entry = s.entry := rfl
@[simp] theorem State.onCab_run (h : StateUnit → StateUnit) : (s.onCab h).run = s.run := rfl
@[simp] theorem State.onCab_back (h : StateUnit → StateUnit) : (s.onCab h).back = s.back := rfl
@[simp] theorem State.onCab_mon (h : StateUnit → StateUnit) : (s.onCab h).mon = s.mon := rfl
@[simp] theorem State.onCab_cab (h : StateUnit → StateUnit) : (s.onCab h).cab = h s.cab := rfl
@[simp] theorem State.onCab_ev (h : StateUnit → StateUnit) : (s.onCab h).ev = s.ev := rfl
@[simp] theorem State.onCab_link (h : StateUnit → StateUnit) : (s.onCab h).link = s.link := rfl
@[simp] theorem State.onCab_mem (h : StateUnit → StateUnit) : (s.onCab h).mem = s.mem := rfl
@[simp] theorem State.onCab_pending (h : StateUnit → StateUnit) : (s.onCab h).pending = s.pending := rfl
@[simp] theorem State.onCab_arrivals (h : StateUnit → StateUnit) : (s.onCab h).arrivals = s.arrivals := rfl
@[simp] theorem State.onCab_onCab (h k : StateUnit → StateUnit) : (s.onCab h).onCab k = s.onCab fun x => k (h x) := rfl

@[simp] theorem State.onEv_front (h : EventUnit → EventUnit) : (s.onEv h).front = s.front := rfl
@[simp] theorem State.onEv_xlat (h : EventUnit → EventUnit) : (s.onEv h).xlat = s.xlat := rfl
@[simp] theorem State.onEv_maps (h : EventUnit → EventUnit) : (s.onEv h).maps = s.maps := rfl
@[simp] theorem State.onEv_doms (h : EventUnit → EventUnit) : (s.onEv h).doms = s.doms := rfl
@[simp] theorem State.onEv_seeds (h : EventUnit → EventUnit) : (s.onEv h).seeds = s.seeds := rfl
@[simp] theorem State.onEv_entry (h : EventUnit → EventUnit) : (s.onEv h).entry = s.entry := rfl
@[simp] theorem State.onEv_run (h : EventUnit → EventUnit) : (s.onEv h).run = s.run := rfl
@[simp] theorem State.onEv_back (h : EventUnit → EventUnit) : (s.onEv h).back = s.back := rfl
@[simp] theorem State.onEv_mon (h : EventUnit → EventUnit) : (s.onEv h).mon = s.mon := rfl
@[simp] theorem State.onEv_cab (h : EventUnit → EventUnit) : (s.onEv h).cab = s.cab := rfl
@[simp] theorem State.onEv_ev (h : EventUnit → EventUnit) : (s.onEv h).ev = h s.ev := rfl
@[simp] theorem State.onEv_link (h : EventUnit → EventUnit) : (s.onEv h).link = s.link := rfl
@[simp] theorem State.onEv_mem (h : EventUnit → EventUnit) : (s.onEv h).mem = s.mem := rfl
@[simp] theorem State.onEv_pending (h : EventUnit → EventUnit) : (s.onEv h).pending = s.pending := rfl
@[simp] theorem State.onEv_arrivals (h : EventUnit → EventUnit) : (s.onEv h).arrivals = s.arrivals := rfl
@[simp] theorem State.onEv_onEv (h k : EventUnit → EventUnit) : (s.onEv h).onEv k = s.onEv fun x => k (h x) := rfl

@[simp] theorem State.onLink_front (h : SupLink → SupLink) : (s.onLink h).front = s.front := rfl
@[simp] theorem State.onLink_xlat (h : SupLink → SupLink) : (s.onLink h).xlat = s.xlat := rfl
@[simp] theorem State.onLink_maps (h : SupLink → SupLink) : (s.onLink h).maps = s.maps := rfl
@[simp] theorem State.onLink_doms (h : SupLink → SupLink) : (s.onLink h).doms = s.doms := rfl
@[simp] theorem State.onLink_seeds (h : SupLink → SupLink) : (s.onLink h).seeds = s.seeds := rfl
@[simp] theorem State.onLink_entry (h : SupLink → SupLink) : (s.onLink h).entry = s.entry := rfl
@[simp] theorem State.onLink_run (h : SupLink → SupLink) : (s.onLink h).run = s.run := rfl
@[simp] theorem State.onLink_back (h : SupLink → SupLink) : (s.onLink h).back = s.back := rfl
@[simp] theorem State.onLink_mon (h : SupLink → SupLink) : (s.onLink h).mon = s.mon := rfl
@[simp] theorem State.onLink_cab (h : SupLink → SupLink) : (s.onLink h).cab = s.cab := rfl
@[simp] theorem State.onLink_ev (h : SupLink → SupLink) : (s.onLink h).ev = s.ev := rfl
@[simp] theorem State.onLink_link (h : SupLink → SupLink) : (s.onLink h).link = h s.link := rfl
@[simp] theorem State.onLink_mem (h : SupLink → SupLink) : (s.onLink h).mem = s.mem := rfl
@[simp] theorem State.onLink_pending (h : SupLink → SupLink) : (s.onLink h).pending = s.pending := rfl
@[simp] theorem State.onLink_arrivals (h : SupLink → SupLink) : (s.onLink h).arrivals = s.arrivals := rfl
@[simp] theorem State.onLink_onLink (h k : SupLink → SupLink) : (s.onLink h).onLink k = s.onLink fun x => k (h x) := rfl

@[simp] theorem State.onMem_front (h : Memory → Memory) : (s.onMem h).front = s.front := rfl
@[simp] theorem State.onMem_xlat (h : Memory → Memory) : (s.onMem h).xlat = s.xlat := rfl
@[simp] theorem State.onMem_maps (h : Memory → Memory) : (s.onMem h).maps = s.maps := rfl
@[simp] theorem State.onMem_doms (h : Memory → Memory) : (s.onMem h).doms = s.doms := rfl
@[simp] theorem State.onMem_seeds (h : Memory → Memory) : (s.onMem h).seeds = s.seeds := rfl
@[simp] theorem State.onMem_entry (h : Memory → Memory) : (s.onMem h).entry = s.entry := rfl
@[simp] theorem State.onMem_run (h : Memory → Memory) : (s.onMem h).run = s.run := rfl
@[simp] theorem State.onMem_back (h : Memory → Memory) : (s.onMem h).back = s.back := rfl
@[simp] theorem State.onMem_mon (h : Memory → Memory) : (s.onMem h).mon = s.mon := rfl
@[simp] theorem State.onMem_cab (h : Memory → Memory) : (s.onMem h).cab = s.cab := rfl
@[simp] theorem State.onMem_ev (h : Memory → Memory) : (s.onMem h).ev = s.ev := rfl
@[simp] theorem State.onMem_link (h : Memory → Memory) : (s.onMem h).link = s.link := rfl
@[simp] theorem State.onMem_mem (h : Memory → Memory) : (s.onMem h).mem = h s.mem := rfl
@[simp] theorem State.onMem_pending (h : Memory → Memory) : (s.onMem h).pending = s.pending := rfl
@[simp] theorem State.onMem_arrivals (h : Memory → Memory) : (s.onMem h).arrivals = s.arrivals := rfl
@[simp] theorem State.onMem_onMem (h k : Memory → Memory) : (s.onMem h).onMem k = s.onMem fun x => k (h x) := rfl

end Sys2Proof.Machine
end

