-- ==== Sys2Proof/Laws/Buffers.lean ====
section
/-! SUPPORT. The buffers' entries: what holding a page, emptying and filling an entry leave of its fields, and what a demap
does to both buffers and to the event flags. -/

namespace Sys2Proof.Machine

/-! ## One entry -/

@[simp] theorem Held.drop_valid (h : Held) : h.drop.valid = false := rfl
@[simp] theorem Held.drop_fields (h : Held) : h.drop.fields = h.fields := rfl
@[simp] theorem Held.drop_page (h : Held) : h.drop.page = none := rfl
@[simp] theorem Held.drop_holds (h : Held) (hit : Page → Bool) : h.drop.holds hit = false := rfl
@[simp] theorem Held.ofPage_valid (p : Page) : (Held.ofPage p).valid = true := rfl
@[simp] theorem Held.ofPage_fields (p : Page) : (Held.ofPage p).fields = p := rfl
@[simp] theorem Held.ofPage_page (p : Page) : (Held.ofPage p).page = some p := rfl
@[simp] theorem Held.reset_page : Held.reset.page = none := rfl
@[simp] theorem FixedEntry.drop_held (e : FixedEntry) : e.drop.held = e.held.drop := rfl
@[simp] theorem FixedEntry.drop_lock (e : FixedEntry) : e.drop.lock = false := rfl
@[simp] theorem FixedEntry.drop_used (e : FixedEntry) : e.drop.used = false := rfl
@[simp] theorem FixedEntry.drop_page (e : FixedEntry) : e.drop.page = none := rfl
@[simp] theorem SetRow.drop_way0 (r : SetRow) : r.drop.way0 = r.way0.drop := rfl
@[simp] theorem SetRow.drop_way1 (r : SetRow) : r.drop.way1 = r.way1.drop := rfl
@[simp] theorem SetRow.demap_recentOne (r : SetRow) (hit : Page → Bool) : (r.demap hit).recentOne = r.recentOne := rfl

/-- An entry holds a page exactly when its valid mark is set, and then the one its fields name. -/
theorem Held.page_eq_some {h : Held} {p : Page} : h.page = some p ↔ h.valid = true ∧ h.fields = p := by
  unfold Held.page
  split <;> simp_all

theorem Held.page_eq_none {h : Held} : h.page = none ↔ h.valid = false := by
  unfold Held.page
  split <;> simp_all

/-- Emptying an entry as the statements say it and as the machine does it are the same. -/
theorem Held.without_eq_demap (hit : Page → Bool) (h : Held) : h.without hit = h.demap hit := by
  simp [Held.without, Held.demap, Held.holds, Held.drop]

/-- No page that `hit` names is left in an emptied entry, and any other is kept. -/
theorem Held.demap_page (hit : Page → Bool) (h : Held) : (h.demap hit).page = h.page.filter fun p => !hit p := by
  obtain ⟨v, p⟩ := h
  cases v <;> cases hp : hit p <;> simp [Held.demap, Held.holds, Held.page, Held.drop, Option.filter, hp]

theorem FixedEntry.demap_page (hit : Page → Bool) (e : FixedEntry) : (e.demap hit).page = e.page.filter fun p => !hit p := by
  obtain ⟨⟨v, p⟩, l, u⟩ := e
  cases v <;> cases hp : hit p <;>
    simp [FixedEntry.demap, Held.holds, FixedEntry.page, Held.page, FixedEntry.drop, Held.drop, Option.filter, hp]

/-! ## Both buffers -/

@[simp] theorem Translation.demap_walks (hit : Page → Bool) (t : Translation) : (t.demap hit).walks = t.walks := rfl
@[simp] theorem Translation.demap_waiting (hit : Page → Bool) (t : Translation) : (t.demap hit).waiting = t.waiting := rfl

@[simp] theorem Translation.demap_fixed (hit : Page → Bool) (t : Translation) (i : Fin 16) :
    (t.demap hit).fixed[i] = t.fixed[i].demap hit := by
  simp [Translation.demap]

@[simp] theorem Translation.demap_sets (hit : Page → Bool) (t : Translation) (i : Fin 256) :
    (t.demap hit).sets[i] = t.sets[i].demap hit := by
  simp [Translation.demap]

/-- Some entry of a vector meets a test exactly when some of its numbers do. -/
theorem any_toList_iff {n : Nat} {α : Type} (v : Vector α n) (f : α → Bool) :
    v.toList.any f = (List.finRange n).any fun i => f v[i] := by
  rw [Bool.eq_iff_iff]
  simp only [List.any_eq_true, List.mem_finRange, true_and]
  constructor
  · rintro ⟨x, hx, hf⟩
    obtain ⟨i, hi, rfl⟩ := List.getElem_of_mem hx
    exact ⟨⟨i, by simpa using hi⟩, by simpa using hf⟩
  · rintro ⟨i, hi⟩
    exact ⟨v[i], by simp [Vector.mem_toList_iff, Vector.getElem_mem], hi⟩

/-- LOCK-LOST's mark in the statements is that of a demap that loses a lock. -/
theorem lockLostMark_eq (hit : Page → Bool) (s : State) :
    LockLostMark hit s = if s.xlat.losesLock hit then Flag.lockLost.mark else 0#11 := by
  unfold LockLostMark Translation.losesLock
  rw [any_toList_iff]
  simp [Held.holds, Bool.and_assoc]

/-- What a demap does (R63, R64): the pages that `hit` names leave both buffers, LOCK-LOST is raised for a locked one while
the main domain works, and nothing else changes. -/
theorem demapBy_eq {hit : Page → Bool} {s : State} (h : live s = true) :
    demapBy hit s = { s with
      xlat := { s.xlat with fixed := (demapBy hit s).xlat.fixed, sets := (demapBy hit s).xlat.sets }
      ev := { s.ev with flags := s.ev.flags ||| LockLostMark hit s } } ∧
    Demapped hit s (demapBy hit s) := by
  have hx : (demapBy hit s).xlat = s.xlat.demap hit := by
    unfold demapBy raiseIf raise
    split
    · split <;> rfl
    · rfl
  refine ⟨?_, fun i => ?_, fun i => ?_⟩
  · rw [hx]
    unfold demapBy raiseIf raise
    cases hl : s.xlat.losesLock hit
    · simp [State.onXlat, Translation.demap, lockLostMark_eq, hl]
    · have hv : live (s.onXlat (Translation.demap hit)) = true := h
      simp only [hv, if_true]
      simp [State.onXlat, State.onEv, Translation.demap, EventUnit.raise, lockLostMark_eq, hl]
  · rw [hx, Translation.demap_fixed]
    simp [FixedEntry.demap, Held.holds, FixedEntry.drop, Held.drop]
  · rw [hx, Translation.demap_sets]
    simp [SetRow.demap, Held.without_eq_demap]

end Sys2Proof.Machine
end

