-- ==== Sys2Proof/Laws/Clock.lean ====
section
/-! SUPPORT. The back clock: what a rank's timer counts, and what moving the clock on leaves as it was. -/

namespace Sys2Proof.Machine

/-- A count changes a rank's timer and its returns to 0, and nothing else. -/
theorem Rank.count_eq (tREFI n : Nat) (r : Rank) :
    r.count tREFI n = { r with timer := (r.count tREFI n).timer, accrued := (r.count tREFI n).accrued } := by
  unfold Rank.count
  simp only
  split <;> rfl

/-- Every clock counted is in the timer or in a return to 0 (R126). -/
theorem Rank.count_exact {tREFI : Nat} {r : Rank} (h : r.timer < tREFI) (n : Nat) :
    (r.count tREFI n).timer < tREFI ∧
      (r.count tREFI n).accrued * tREFI + (r.count tREFI n).timer = r.accrued * tREFI + r.timer + n := by
  have hu : r.untilAccrual tREFI = tREFI - r.timer := by
    unfold Rank.untilAccrual
    omega
  unfold Rank.count
  simp only [hu]
  split
  · exact ⟨by simp only; omega, by simp only; omega⟩
  · refine ⟨Nat.mod_lt _ (by omega), ?_⟩
    simp only [Nat.add_mul, Nat.one_mul]
    have := Nat.div_add_mod (n - (tREFI - r.timer)) tREFI
    rw [Nat.mul_comm] at this
    omega

@[simp] theorem BackCtl.advance_queue (t : Nat) (b : BackCtl) : (b.advance t).queue = b.queue := rfl
@[simp] theorem BackCtl.advance_service (t : Nat) (b : BackCtl) : (b.advance t).service = b.service := rfl
@[simp] theorem BackCtl.advance_banks (t : Nat) (b : BackCtl) : (b.advance t).banks = b.banks := rfl
@[simp] theorem BackCtl.advance_bursts (t : Nat) (b : BackCtl) : (b.advance t).bursts = b.bursts := rfl
@[simp] theorem BackCtl.advance_timing (t : Nat) (b : BackCtl) : (b.advance t).timing = b.timing := rfl
@[simp] theorem BackCtl.advance_startUp (t : Nat) (b : BackCtl) : (b.advance t).startUp = b.startUp := rfl
@[simp] theorem BackCtl.advance_clock (t : Nat) (b : BackCtl) : (b.advance t).clock = max b.clock t := rfl

theorem BackCtl.advance_ranks {t : Nat} {b : BackCtl} (r : Fin 2) :
    (b.advance t).ranks[r] =
      if b.startUp.isSome then b.ranks[r] else b.ranks[r].count b.timing.tREFI (t - b.clock) := by
  unfold BackCtl.advance
  split <;> simp

/-- Moving the clock on changes the timers alone, which count the clocks that pass. -/
theorem timersOnly_advance (t : Nat) (s : State) : TimersOnly s (s.onBack (.advance t)) := by
  intro r
  have hr : (s.onBack (.advance t)).back.ranks[r] =
      if s.back.startUp.isSome then s.back.ranks[r] else s.back.ranks[r].count s.back.timing.tREFI (t - s.back.clock) :=
    BackCtl.advance_ranks r
  rw [hr]
  refine ⟨?_, fun h => by simp [h], fun h ht => ?_⟩
  · split
    · rfl
    · exact Rank.count_eq _ _ _
  · simp only [h, Option.isSome_none, Bool.false_eq_true, if_false]
    obtain ⟨h1, h2⟩ := Rank.count_exact ht (t - s.back.clock)
    refine ⟨h1, ?_⟩
    rw [h2, State.onBack_back, BackCtl.advance_clock]
    omega

end Sys2Proof.Machine
end

