-- ==== Sys2Proof/Laws/Memory.lean ====
section
/-! SUPPORT. Back memory: a byte read after a write, and the canonical form that every operation keeps. -/

namespace Sys2Proof.Machine

/-- Every cell of a list lies above an address. -/
def CellsAbove (a : Nat) (cs : List Host.Cell) : Prop := ∀ c ∈ cs, a < c.1

/-- The canonical form of a list of cells, as `Memory.wf` asks it of a memory's. -/
def CellsWf (era : Nat) (cs : List Host.Cell) : Prop :=
  cs.Pairwise (fun x y => x.1 < y.1) ∧ ∀ c ∈ cs, c.2 ≠ unwritten era c.1

theorem Memory.wf_iff (m : Memory) : m.wf ↔ CellsWf m.era m.cells := Iff.rfl

/-- Reading below every cell reads what an unlisted address reads as. -/
theorem readCells_of_above {era a : Nat} {cs : List Host.Cell} (h : CellsAbove a cs) :
    readCells era cs a = unwritten era a := by
  induction cs with
  | nil => rfl
  | cons c cs ih =>
    have h1 : a < c.1 := h c (by simp)
    have h2 : CellsAbove a cs := fun x hx => h x (by simp [hx])
    simp only [readCells, if_neg (Nat.ne_of_lt h1), ih h2]

/-- The cells of a write come from the old cells or are the written one. -/
theorem mem_writeCells {era a : Nat} {v : Byte} {cs : List Host.Cell} {c : Host.Cell}
    (h : c ∈ writeCells era cs a v) : c ∈ cs ∨ (c = (a, v) ∧ v ≠ unwritten era a) := by
  induction cs with
  | nil =>
    simp only [writeCells] at h
    split at h
    · simp at h
    · simp at h; exact .inr ⟨h, ‹_›⟩
  | cons x cs ih =>
    obtain ⟨b, w⟩ := x
    simp only [writeCells] at h
    split at h
    · split at h
      · exact .inl h
      · rcases List.mem_cons.1 h with h | h
        · exact .inr ⟨h, ‹_›⟩
        · exact .inl h
    · split at h
      · split at h
        · exact .inl (List.mem_cons_of_mem _ h)
        · rcases List.mem_cons.1 h with h | h
          · exact .inr ⟨h, ‹_›⟩
          · exact .inl (List.mem_cons_of_mem _ h)
      · rcases List.mem_cons.1 h with h | h
        · exact .inl (by simp [h])
        · rcases ih h with h | h
          · exact .inl (List.mem_cons_of_mem _ h)
          · exact .inr h

/-- A write keeps the canonical form. -/
theorem writeCells_wf {era : Nat} {cs : List Host.Cell} (h : CellsWf era cs) (a : Nat) (v : Byte) :
    CellsWf era (writeCells era cs a v) := by
  refine ⟨?_, fun c hc => ?_⟩
  · induction cs with
    | nil =>
      simp only [writeCells]
      split <;> simp
    | cons x cs ih =>
      obtain ⟨b, w⟩ := x
      have hp := List.pairwise_cons.1 h.1
      have hcs : CellsWf era cs := ⟨hp.2, fun c hc => h.2 c (List.mem_cons_of_mem _ hc)⟩
      simp only [writeCells]
      split
      · next hlt =>
        split
        · exact h.1
        · refine List.pairwise_cons.2 ⟨fun c hc => ?_, h.1⟩
          rcases List.mem_cons.1 hc with hc | hc
          · subst hc; exact hlt
          · exact Nat.lt_trans hlt (hp.1 c hc)
      · next hlt =>
        split
        · next heq =>
          split
          · exact hp.2
          · subst heq
            exact List.pairwise_cons.2 ⟨hp.1, hp.2⟩
        · next hne =>
          refine List.pairwise_cons.2 ⟨fun c hc => ?_, ih hcs⟩
          rcases mem_writeCells hc with hc | ⟨hc, -⟩
          · exact hp.1 c hc
          · subst hc; simp only; omega
  · rcases mem_writeCells hc with hc | ⟨rfl, hv⟩
    · exact h.2 c hc
    · exact hv

/-- Reading after a write: the written byte at its address, every other byte as before. -/
theorem readCells_writeCells {era : Nat} {cs : List Host.Cell} (h : CellsWf era cs) (a b : Nat) (v : Byte) :
    readCells era (writeCells era cs a v) b = if b = a then v else readCells era cs b := by
  induction cs with
  | nil =>
    simp only [writeCells]
    split
    · next hv =>
      split
      · next hb => subst hb; simp [readCells, hv]
      · rfl
    · simp only [readCells]
  | cons x cs ih =>
    obtain ⟨c, w⟩ := x
    have hp := List.pairwise_cons.1 h.1
    have hcs : CellsWf era cs := ⟨hp.2, fun y hy => h.2 y (List.mem_cons_of_mem _ hy)⟩
    simp only [writeCells]
    split
    · next hlt =>
      have habove : CellsAbove a ((c, w) :: cs) := by
        intro y hy
        rcases List.mem_cons.1 hy with hy | hy
        · subst hy; exact hlt
        · exact Nat.lt_trans hlt (hp.1 y hy)
      split
      · next hv =>
        split
        · next hb => subst hb; rw [readCells_of_above habove, hv]
        · rfl
      · simp only [readCells]
    · split
      · next heq =>
        subst heq
        split
        · next hv =>
          split
          · next hb => subst hb; rw [readCells_of_above (fun y hy => hp.1 y hy), hv]
          · next hb => simp only [readCells, if_neg hb]
        · simp only [readCells]
          split <;> simp_all
      · next hne =>
        simp only [readCells, ih hcs]
        split
        · next hb => rw [if_neg (by omega)]
        · rfl

@[simp] theorem Memory.writeByte_era (m : Memory) (a : Nat) (v : Byte) : (m.writeByte a v).era = m.era := rfl

/-- A byte write keeps the canonical form. -/
theorem Memory.writeByte_wf {m : Memory} (h : m.wf) (a : Nat) (v : Byte) : (m.writeByte a v).wf := writeCells_wf h a v

/-- Reading a byte after a byte write. -/
theorem Memory.readByte_writeByte {m : Memory} (h : m.wf) (a b : Nat) (v : Byte) :
    (m.writeByte a v).readByte b = if b = a then v else m.readByte b := readCells_writeCells h a b v

/-- A blank memory has the canonical form. -/
theorem Memory.blank_wf (n : Nat) : (Memory.blank n).wf := by simp [Memory.blank, Memory.wf]

/-- A line write keeps the canonical form. -/
theorem Memory.writeLine_wf {m : Memory} (h : m.wf) (b : BackLine) (l : Line) (masks : Marks) :
    (m.writeLine b l masks).wf := by
  unfold Memory.writeLine
  generalize List.finRange 64 = is
  induction is generalizing m with
  | nil => exact h
  | cons i is ih =>
    rw [List.foldl_cons]
    apply ih
    split
    · exact h
    · exact Memory.writeByte_wf h _ _

/-- A line write leaves the era as it was. -/
@[simp] theorem Memory.writeLine_era (m : Memory) (b : BackLine) (l : Line) (masks : Marks) :
    (m.writeLine b l masks).era = m.era := by
  unfold Memory.writeLine
  generalize List.finRange 64 = is
  induction is generalizing m with
  | nil => rfl
  | cons i is ih => rw [List.foldl_cons, ih]; split <;> rfl

/-- The writes of a line write, byte by byte, seen from one address. -/
theorem Memory.readByte_writes {m : Memory} (h : m.wf) (base : Nat) (l : Line) (masks : Marks) (is : List (Fin 64)) (a : Nat) :
    (is.foldl (fun m i => if masks.getLsbD i.val then m else m.writeByte (base + i.val) l[i]) m).readByte a =
      match is.reverse.find? (fun i => a == base + i.val && !masks.getLsbD i.val) with
      | some i => l[i]
      | none => m.readByte a := by
  induction is generalizing m with
  | nil => rfl
  | cons i is ih =>
    rw [List.foldl_cons]
    by_cases hm : masks.getLsbD i.val = true
    · simp only [hm, if_true]
      rw [ih h, List.reverse_cons, List.find?_append]
      cases List.find? _ is.reverse <;> simp [hm]
    · simp only [hm, if_false, Bool.false_eq_true]
      rw [ih (Memory.writeByte_wf h _ _), List.reverse_cons, List.find?_append]
      cases List.find? _ is.reverse with
      | some j => simp
      | none =>
        simp only [Memory.readByte_writeByte h]
        have hm' : masks.getLsbD i.val = false := by simpa using hm
        by_cases ha : a = base + i.val <;> simp only [List.find?_cons, List.find?_nil, ha, hm', beq_self_eq_true, Bool.not_false, Bool.and_true, Option.none_or,
          if_true, if_false, beq_eq_false_iff_ne.2, ne_eq, not_false_eq_true]

/-- A byte of the line after its line write: the new byte where its mask is clear, the old one where it is set. -/
theorem Memory.readByte_writeLine_in {m : Memory} (h : m.wf) (b : BackLine) (l : Line) (masks : Marks) (i : Fin 64) :
    (m.writeLine b l masks).readByte (backAddr b + i.val) =
      if masks.getLsbD i.val then m.readByte (backAddr b + i.val) else l[i] := by
  unfold Memory.writeLine
  rw [Memory.readByte_writes h]
  cases hf : List.find? (fun j : Fin 64 => backAddr b + i.val == backAddr b + j.val && !masks.getLsbD j.val)
      (List.finRange 64).reverse with
  | some j =>
    have hj := List.find?_some hf
    simp only [Bool.and_eq_true, beq_iff_eq, Bool.not_eq_true'] at hj
    have : j = i := by apply Fin.ext; omega
    subst this
    rw [hj.2]; rfl
  | none =>
    have hn := List.find?_eq_none.1 hf i (by simp)
    simp at hn
    simp [hn]

/-- A byte outside the line after a line write: as before. -/
theorem Memory.readByte_writeLine_out {m : Memory} (h : m.wf) (b : BackLine) (l : Line) (masks : Marks) {a : Nat}
    (ha : a < backAddr b ∨ backAddr b + 64 ≤ a) : (m.writeLine b l masks).readByte a = m.readByte a := by
  unfold Memory.writeLine
  rw [Memory.readByte_writes h]
  cases hf : List.find? (fun j : Fin 64 => a == backAddr b + j.val && !masks.getLsbD j.val) (List.finRange 64).reverse with
  | some j =>
    have hj := List.find?_some hf
    simp only [Bool.and_eq_true, beq_iff_eq] at hj
    omega
  | none => rfl

end Sys2Proof.Machine
end

