-- ==== Sys2Proof/Laws/Pulse.lean ====
section
/-! SUPPORT. Run pulses: what the end of a lease or of a window changes, and that nothing is left to take where the last
pulse's ends have been taken. -/

namespace Sys2Proof.Machine

/-- What the ends of leases and windows leave as it was. -/
structure Ends (s t : State) : Prop where
  front : t.front = s.front
  maps : t.maps = s.maps
  seeds : t.seeds = s.seeds
  run : t.run = s.run
  back : t.back = s.back
  mon : t.mon = s.mon
  cab : t.cab = s.cab
  link : t.link = s.link
  mem : t.mem = s.mem
  pending : t.pending = s.pending
  arrivals : t.arrivals = s.arrivals
  walks : t.xlat.walks = s.xlat.walks
  waiting : t.xlat.waiting = s.xlat.waiting
  list : t.entry.list = s.entry.list
  domain : t.entry.domain = s.entry.domain
  limit : t.entry.limit = s.entry.limit
  switchA : t.entry.switchA = s.entry.switchA
  switchB : t.entry.switchB = s.entry.switchB
  work : t.entry.work = s.entry.work

namespace Ends

theorem refl (s : State) : Ends s s := by constructor <;> rfl

theorem trans {s t u : State} (h : Ends s t) (k : Ends t u) : Ends s u := by
  constructor
  · exact k.front.trans h.front
  · exact k.maps.trans h.maps
  · exact k.seeds.trans h.seeds
  · exact k.run.trans h.run
  · exact k.back.trans h.back
  · exact k.mon.trans h.mon
  · exact k.cab.trans h.cab
  · exact k.link.trans h.link
  · exact k.mem.trans h.mem
  · exact k.pending.trans h.pending
  · exact k.arrivals.trans h.arrivals
  · exact k.walks.trans h.walks
  · exact k.waiting.trans h.waiting
  · exact k.list.trans h.list
  · exact k.domain.trans h.domain
  · exact k.limit.trans h.limit
  · exact k.switchA.trans h.switchA
  · exact k.switchB.trans h.switchB
  · exact k.work.trans h.work

theorem foldl {α : Type} {f : State → α → State} (k : ∀ u a, Ends u (f u a)) (l : List α) (s : State) :
    Ends s (l.foldl f s) := by
  induction l generalizing s with
  | nil => exact refl s
  | cons a l ih => exact (k s a).trans (ih _)

end Ends

theorem raise_ends (f : Flag) (s : State) : Ends s (raise f s) := by
  unfold raise
  split
  · constructor <;> rfl
  · exact .refl s

theorem domainDemap_ends (d : DomId) (s : State) : Ends s (domainDemap d s) := by
  refine .trans (t := s.onXlat (.demap fun p => p.dom == d)) (by constructor <;> rfl) ?_
  unfold domainDemap demapBy raiseIf
  split
  · exact raise_ends _ _
  · exact .refl _

/-- The end of a lease changes domain records, buffered pages and events alone (R85). -/
theorem expireLease_ends (d : DomId) (s : State) : Ends s (expireLease d s) := by
  unfold expireLease
  simp only
  split
  · split
    · exact .trans (by constructor <;> rfl) (raise_ends _ _)
    · refine .trans (t := (endRun d s).onEv fun e => { e with expired := e.expired ||| domMark d }) ?_ (raise_ends _ _)
      refine .trans (t := endRun d s) ?_ (by constructor <;> rfl)
      exact .trans (by constructor <;> rfl) (domainDemap_ends d _)
  · exact .refl s

/-- The lapse of a window changes the windows and the waiting operations alone (R98). -/
theorem lapse_ends (x : Custodian) (s : State) : Ends s (lapse x s) := by
  unfold lapse
  split
  · unfold EntryUnit.request
    cases x <;> (constructor <;> first | rfl | (simp only [State.onEntry]; split <;> rfl))
  · exact .refl s

/-- What a run pulse ended is taken without a change to anything but domain records, windows, waiting operations, buffered
pages and events. -/
theorem afterPulse_ends (s : State) : Ends s (afterPulse s) := by
  unfold afterPulse
  split
  · exact ((Ends.foldl (fun u d => expireLease_ends d u) _ s).trans (lapse_ends _ _)).trans (lapse_ends _ _)
  · exact .refl s

/-- Where every end of the last run pulse has been taken, nothing is left to take. -/
theorem afterPulse_of_taken {s : State} (h : PulseTaken s) : afterPulse s = s := by
  unfold afterPulse
  split
  · next hc =>
    obtain ⟨hd, hw⟩ := h hc.1
    have ha : s.entry.windowA.state = .opened → s.entry.windowA.ending = false := hw .a
    have hb : s.entry.windowB.state = .opened → s.entry.windowB.ending = false := hw .b
    have : pulseOpen s = false := by
      unfold pulseOpen
      simp only [Bool.or_eq_false_iff, List.any_eq_false, Bool.and_eq_true, beq_iff_eq, Bool.and_eq_false_iff,
        List.mem_finRange, forall_const, beq_eq_false_iff_ne]
      refine ⟨⟨fun d hd' => absurd (hd d hd'.1) (by simpa using hd'.2), ?_⟩, ?_⟩
      · exact (Classical.em (s.entry.windowA.state = .opened)).elim (fun h => .inr (ha h)) .inl
      · exact (Classical.em (s.entry.windowB.state = .opened)).elim (fun h => .inr (hb h)) .inl
    rw [this] at hc
    exact absurd hc.2 (by simp)
  · rfl

end Sys2Proof.Machine
end

