-- ==== Sys2Proof/Laws/Room.lean ====
section
/-! SUPPORT. Fill room in the Map Unit: whom `grantRoom` gives it to (R36). -/

namespace Sys2Proof.Machine

/-- Waiting as the statements say it and as the machine does it are the same. -/
theorem beginWait_back (w : Waiter) (s : State) : beginWait w s = { s with back := s.back.await w } := by
  by_cases h : w ∈ s.back.waiting <;> simp [beginWait, BackCtl.await, State.onBack, h]

/-- Two marks in a row on updates are the marks of both lines. -/
theorem map_writing_cons (k : MapLine) (given : List MapLine) (l : List UpdateEntry) :
    (l.map fun u => if (u.line == k) = true then { u with state := UpdateState.writing true } else u).map
        (fun v => if v.line ∈ given then { v with state := UpdateState.writing true } else v) =
      l.map fun v => if v.line ∈ k :: given then { v with state := UpdateState.writing true } else v := by
  rw [List.map_map]
  refine List.map_congr_left fun v _ => ?_
  by_cases hk : v.line = k <;> by_cases hg : v.line ∈ given <;> simp [hk, hg]

/-- Fill room goes to the front of the list, as far as it goes; each entry given room waits to send its line write. -/
theorem grantRoom_given (l : List MapLine) (s : State) (h : ∀ k ∈ l, ∃ v ∈ s.maps.updates, v.line = k) :
    RoomGiven { s with maps := { s.maps with roomOrder := l } } (grantRoom l s) := by
  induction l generalizing s with
  | nil => exact ⟨[], by simp [grantRoom], by simp [grantRoom, State.onMaps], by simp [grantRoom]⟩
  | cons k rest ih =>
    obtain ⟨v, hv, hk⟩ := h k (.head _)
    cases hf : findUpdate s k with
    | none => exact absurd hk (by simpa using List.find?_eq_none.mp hf v hv)
    | some u =>
      unfold grantRoom
      simp only [hf]
      split
      · have hr : ∀ k' ∈ rest, ∃ v ∈ (beginWait (.updateWrite k)
            (onUpdate k (fun v => { v with state := .writing true }) s)).maps.updates, v.line = k' := by
          intro k' hk'
          obtain ⟨v', hv', rfl⟩ := h k' (.tail _ hk')
          refine ⟨if v'.line == k then { v' with state := .writing true } else v', ?_, by split <;> rfl⟩
          rw [beginWait_back]
          exact List.mem_map_of_mem hv'
        obtain ⟨given, hg, hu, hs⟩ := ih _ hr
        refine ⟨k :: given, ?_, ?_, hs⟩
        · rw [List.cons_append]
          exact congrArg _ hg
        · rw [hu]
          simp only [beginWait_back, onUpdate, State.onMaps, map_writing_cons, List.foldl_cons]
      · next hn =>
        refine ⟨[], rfl, by simp [State.onMaps], ?_⟩
        intro k' v' hk' hv'
        cases hk'
        have : v' = u := by
          have : findUpdate s k = some v' := hv'
          rw [hf] at this
          exact (Option.some.inj this).symm
        subst this
        simpa [Limit.fills, MapUnit.reserved] using hn

end Sys2Proof.Machine
end

