-- ==== Sys2Proof/Laws/Slots.lean ====
section
/-! SUPPORT. Front slots, Entry List entries and updates by their keys: what looking one up gives after a change to one, and
what refusing a transaction, offering a request and entering the Back Queue leave. -/

namespace Sys2Proof.Machine

variable (s : State)

/-! ## Looking up after a change -/

/-- The first element that meets `p` after those that meet `p` are changed by a function that keeps `p`. -/
theorem find?_map_ite_self {α : Type} (p : α → Bool) (f : α → α) (l : List α) {x : α} (hf : ∀ y, p y = true → p (f y) = true)
    (h : l.find? p = some x) : (l.map fun y => if p y = true then f y else y).find? p = some (f x) := by
  induction l with
  | nil => simp at h
  | cons y l ih =>
    by_cases hy : p y = true
    · simp only [List.find?_cons, hy] at h
      cases h
      simp [hy, hf _ hy]
    · simp only [List.find?_cons, hy] at h
      simp only [List.map_cons, hy, List.find?_cons]
      simpa [hy] using ih h

/-- The first element that meets `q` after those that meet `p` are changed, where the two are apart. -/
theorem find?_map_ite_other {α : Type} (p q : α → Bool) (f : α → α) (l : List α) (h1 : ∀ y, p y = true → q y = false)
    (h2 : ∀ y, p y = true → q (f y) = false) : (l.map fun y => if p y = true then f y else y).find? q = l.find? q := by
  induction l with
  | nil => rfl
  | cons y l ih =>
    by_cases hy : p y = true
    · simp [hy, h1 y hy, h2 y hy, ih]
    · simp [List.find?_cons, hy, ih]

/-- The slot of a tag after that slot's phase is set. -/
theorem findSlot_setPhase_self {tag : Tag} {x : Slot} (ph : Phase) (h : findSlot s tag = some x) :
    findSlot (setPhase tag ph s) tag = some { x with phase := ph } :=
  find?_map_ite_self (fun y : Slot => y.txn.tag == tag) (fun y => { y with phase := ph }) s.front.slots (fun _ hy => hy) h

/-- The slots of the other tags after a change to one slot that keeps its transaction. -/
theorem findSlot_onSlot_other {tag tag' : Tag} (f : Slot → Slot) (hf : ∀ y, (f y).txn = y.txn) (h : tag' ≠ tag) :
    findSlot (onSlot tag f s) tag' = findSlot s tag' := by
  apply find?_map_ite_other
  · intro y hy; simp at hy ⊢; rw [hy]; exact fun h' => h h'.symm
  · intro y hy; simp at hy ⊢; rw [hf, hy]; exact fun h' => h h'.symm

/-- The slots of the other tags after one slot's phase is set. -/
theorem findSlot_setPhase_other {tag tag' : Tag} (ph : Phase) (h : tag' ≠ tag) :
    findSlot (setPhase tag ph s) tag' = findSlot s tag' := findSlot_onSlot_other s _ (fun _ => rfl) h

/-- A slot that is found has the tag. -/
theorem tag_of_findSlot {tag : Tag} {x : Slot} (h : findSlot s tag = some x) : x.txn.tag = tag := by
  have := List.find?_some h
  simpa using this

/-- A slot that is found is listed. -/
theorem mem_of_findSlot {tag : Tag} {x : Slot} (h : findSlot s tag = some x) : x ∈ s.front.slots := List.mem_of_find?_eq_some h

/-- The slot of a tag depends on the slots alone. -/
theorem findSlot_congr {s t : State} (h : t.front.slots = s.front.slots) (tag : Tag) : findSlot t tag = findSlot s tag := by
  simp [findSlot, h]

/-- The entry of a page after that entry is changed. -/
theorem findEntry_onEntryRec_self {d : DomId} {f : Fpn} {e : EntryRec} (g : EntryRec → EntryRec)
    (hg : ∀ e, (g e).dom = e.dom ∧ (g e).fpn = e.fpn) (h : findEntry s d f = some e) :
    findEntry (onEntryRec d f g s) d f = some (g e) :=
  find?_map_ite_self (fun e : EntryRec => e.dom == d && e.fpn == f) g s.entry.list
    (fun y hy => by rw [(hg y).1, (hg y).2]; exact hy) h

/-- The entries of other pages after one entry is changed. -/
theorem findEntry_onEntryRec_other {d d' : DomId} {f f' : Fpn} (g : EntryRec → EntryRec)
    (hg : ∀ e, (g e).dom = e.dom ∧ (g e).fpn = e.fpn) (h : (d', f') ≠ (d, f)) :
    findEntry (onEntryRec d f g s) d' f' = findEntry s d' f' := by
  have key : ∀ y : EntryRec, (y.dom == d && y.fpn == f) = true → (y.dom == d' && y.fpn == f') = false := by
    intro y hy
    simp only [Bool.and_eq_true, beq_iff_eq] at hy
    rw [hy.1, hy.2]
    by_contra hc
    simp only [Bool.not_eq_false, Bool.and_eq_true, beq_iff_eq] at hc
    exact h (by rw [hc.1, hc.2])
  exact find?_map_ite_other _ _ g s.entry.list key (fun y hy => by rw [(hg y).1, (hg y).2]; exact key y hy)

/-- The update of a map line after that update is changed. -/
theorem findUpdate_onUpdate_self {k : MapLine} {u : UpdateEntry} (g : UpdateEntry → UpdateEntry) (hg : ∀ u, (g u).line = u.line)
    (h : findUpdate s k = some u) : findUpdate (onUpdate k g s) k = some (g u) :=
  find?_map_ite_self (fun u : UpdateEntry => u.line == k) g s.maps.updates (fun y hy => by rw [hg y]; exact hy) h

/-- The updates of other map lines after one update is changed. -/
theorem findUpdate_onUpdate_other {k k' : MapLine} (g : UpdateEntry → UpdateEntry) (hg : ∀ u, (g u).line = u.line)
    (h : k' ≠ k) : findUpdate (onUpdate k g s) k' = findUpdate s k' := by
  have key : ∀ y : UpdateEntry, (y.line == k) = true → (y.line == k') = false := by
    intro y hy; simp at hy ⊢; rw [hy]; exact fun h' => h h'.symm
  exact find?_map_ite_other _ _ g s.maps.updates key (fun y hy => by rw [hg y]; exact key y hy)

/-! ## Refusals and offers -/

/-- A refusal sets the slot's phase and takes the report. -/
theorem refuse_eq {tag : Tag} {x : Slot} (k : Kind) (r : Reason) (h : findSlot s tag = some x) :
    refuse tag k r s = report (refusalReport k r x) (setPhase tag (.responding k.status zeroLine) s) := by
  simp [refuse, h, respond]

/-- Whether a maker's request may enter depends on the Back Queue and the waiting makers alone. -/
theorem mayEnter_congr {s t : State} (w : Waiter) (hq : t.back.queue = s.back.queue) (hw : t.back.waiting = s.back.waiting) :
    mayEnter w t = mayEnter w s := by
  have hr : hasRoom t = hasRoom s := by funext v; simp only [hasRoom, hq]
  have hf : firstReady t = firstReady s := by rw [firstReady, firstReady, hr, hw]
  simp only [mayEnter, hf, hr]

/-- An offer that may enter enters. -/
theorem offer_of_mayEnter {s : State} {w : Waiter} (h : mayEnter w s = true) : offer w s = enter w s := by
  simp [offer, h]

end Sys2Proof.Machine
end

