-- ==== Sys2Proof/Laws/Traffic.lean ====
section
/-! SUPPORT. What the operations that carry traffic leave as it was: the domain records, the seeds, the run clock, the
Tamper Monitor, the State Unit, back memory, the queue of commands and what is to come. -/

namespace Sys2Proof.Machine

/-- What traffic leaves as it was. -/
structure Traffic (s t : State) : Prop where
  doms : t.doms = s.doms
  seeds : t.seeds = s.seeds
  run : t.run = s.run
  mon : t.mon = s.mon
  cab : t.cab = s.cab
  mem : t.mem = s.mem
  pending : t.pending = s.pending
  arrivals : t.arrivals = s.arrivals

namespace Traffic

theorem refl (s : State) : Traffic s s := ⟨rfl, rfl, rfl, rfl, rfl, rfl, rfl, rfl⟩

theorem trans {s t u : State} (h : Traffic s t) (k : Traffic t u) : Traffic s u :=
  ⟨k.doms.trans h.doms, k.seeds.trans h.seeds, k.run.trans h.run, k.mon.trans h.mon, k.cab.trans h.cab,
    k.mem.trans h.mem, k.pending.trans h.pending, k.arrivals.trans h.arrivals⟩

/-- Carry a frame through one more operation. -/
theorem step {s t : State} {f : State → State} (k : ∀ u, Traffic u (f u)) (h : Traffic s t) : Traffic s (f t) :=
  h.trans (k t)

theorem foldl {α : Type} {f : State → α → State} (k : ∀ u a, Traffic u (f u a)) (l : List α) (s : State) :
    Traffic s (l.foldl f s) := by
  induction l generalizing s with
  | nil => exact refl s
  | cons a l ih => exact (k s a).trans (ih _)

theorem ite {s t u : State} {c : Prop} [Decidable c] (h : Traffic s t) (k : Traffic s u) :
    Traffic s (if c then t else u) := by
  split
  · exact h
  · exact k

end Traffic

section Basic

variable (s : State)

theorem onFront_traffic (f) : Traffic s (s.onFront f) := ⟨rfl, rfl, rfl, rfl, rfl, rfl, rfl, rfl⟩
theorem onXlat_traffic (f) : Traffic s (s.onXlat f) := ⟨rfl, rfl, rfl, rfl, rfl, rfl, rfl, rfl⟩
theorem onMaps_traffic (f) : Traffic s (s.onMaps f) := ⟨rfl, rfl, rfl, rfl, rfl, rfl, rfl, rfl⟩
theorem onEntry_traffic (f) : Traffic s (s.onEntry f) := ⟨rfl, rfl, rfl, rfl, rfl, rfl, rfl, rfl⟩
theorem onBack_traffic (f) : Traffic s (s.onBack f) := ⟨rfl, rfl, rfl, rfl, rfl, rfl, rfl, rfl⟩
theorem onEv_traffic (f) : Traffic s (s.onEv f) := ⟨rfl, rfl, rfl, rfl, rfl, rfl, rfl, rfl⟩
theorem onLink_traffic (f) : Traffic s (s.onLink f) := ⟨rfl, rfl, rfl, rfl, rfl, rfl, rfl, rfl⟩

theorem raise_traffic (f : Flag) : Traffic s (raise f s) := Traffic.ite (onEv_traffic s _) (.refl s)
theorem raiseIf_traffic (c : Bool) (f : Flag) : Traffic s (raiseIf c f s) := Traffic.ite (raise_traffic s f) (.refl s)
theorem report_traffic (r : Report) : Traffic s (report r s) := onEv_traffic s _
theorem onSlot_traffic (t : Tag) (f) : Traffic s (onSlot t f s) := onFront_traffic s _
theorem setPhase_traffic (t : Tag) (p : Phase) : Traffic s (setPhase t p s) := ⟨rfl, rfl, rfl, rfl, rfl, rfl, rfl, rfl⟩
theorem respond_traffic (t : Tag) (st : Status) (d : Line) : Traffic s (respond t st d s) := ⟨rfl, rfl, rfl, rfl, rfl, rfl, rfl, rfl⟩
theorem respondDone_traffic (t : Tag) : Traffic s (respondDone t s) := ⟨rfl, rfl, rfl, rfl, rfl, rfl, rfl, rfl⟩

theorem refuse_traffic (t : Tag) (k : Kind) (r : Reason) : Traffic s (refuse t k r s) := by
  unfold refuse
  split
  · exact .refl s
  · exact (respond_traffic s _ _ _).trans (report_traffic _ _)

theorem onEntryRec_traffic (d : DomId) (f : Fpn) (g) : Traffic s (onEntryRec d f g s) := onEntry_traffic s _
theorem removeEntry_traffic (d : DomId) (f : Fpn) : Traffic s (removeEntry d f s) := onEntry_traffic s _
theorem setWork_traffic (w) : Traffic s (setWork w s) := onEntry_traffic s _

theorem demapBy_traffic (hit : Page → Bool) : Traffic s (demapBy hit s) :=
  (onXlat_traffic s _).trans (raiseIf_traffic _ _ _)
theorem pageDemap_traffic (d : DomId) (f : Fpn) : Traffic s (pageDemap d f s) := demapBy_traffic s _
theorem domainDemap_traffic (d : DomId) : Traffic s (domainDemap d s) := demapBy_traffic s _
theorem allDemap_traffic : Traffic s (allDemap s) := (onXlat_traffic s _).trans (raiseIf_traffic _ _ _)
theorem markStale_traffic (k : MapLine) : Traffic s (markStale k s) := onXlat_traffic s _

theorem enqueue_traffic (w : Bool) (l : BackLine) (o : Origin) (b : Beat) (d : Line) (m : Marks) :
    Traffic s (enqueue w l o b d m s) := onBack_traffic s _
theorem enqueueRead_traffic (l : BackLine) (o : Origin) (b : Beat) : Traffic s (enqueueRead l o b s) := ⟨rfl, rfl, rfl, rfl, rfl, rfl, rfl, rfl⟩
theorem enqueueWrite_traffic (l : BackLine) (o : Origin) (d : Line) : Traffic s (enqueueWrite l o d s) := ⟨rfl, rfl, rfl, rfl, rfl, rfl, rfl, rfl⟩
theorem beginWait_traffic (w : Waiter) : Traffic s (beginWait w s) := onBack_traffic s _
theorem endWait_traffic (w : Waiter) : Traffic s (endWait w s) := onBack_traffic s _

theorem rawWatch_traffic (k : MapLine) : Traffic s (rawWatch k s) := by
  unfold rawWatch
  generalize mapLinePairs k = l
  exact (markStale_traffic s k).trans (Traffic.foldl (fun u (p : DomId × Fpn) => pageDemap_traffic u p.1 p.2) l _)

theorem enterFront_traffic (t : Tag) : Traffic s (enterFront t s) := by
  unfold enterFront
  split
  · exact .refl s
  · split
    · exact (enqueueRead_traffic s _ _ _).trans (setPhase_traffic _ _ _)
    · split
      · exact (enqueue_traffic s _ _ _ _ _ _).trans (respondDone_traffic _ _)
      · split
        · exact ((enqueueWrite_traffic s _ _ _).trans (rawWatch_traffic _ _)).trans (respondDone_traffic _ _)
        · exact (enqueueWrite_traffic s _ _ _).trans (respondDone_traffic _ _)
      · split
        · exact (enqueueWrite_traffic s _ _ _).trans (respondDone_traffic _ _)
        · exact refuse_traffic s _ _ _
      · exact .refl s
    · exact .refl s

theorem enterWalk_traffic (d : DomId) (f : Fpn) : Traffic s (enterWalk d f s) := ⟨rfl, rfl, rfl, rfl, rfl, rfl, rfl, rfl⟩

theorem onUpdate_traffic (k : MapLine) (f) : Traffic s (onUpdate k f s) := onMaps_traffic s _

theorem enterUpdateRead_traffic (k : MapLine) : Traffic s (enterUpdateRead k s) :=
  (enqueueRead_traffic s _ _ _).trans (onUpdate_traffic _ _ _)

theorem dropNewEntry_traffic (c : CompOp) : Traffic s (dropNewEntry c s) :=
  Traffic.ite (.refl s) (onEntry_traffic s _)

theorem enterEntry_traffic : Traffic s (enterEntry s) := by
  unfold enterEntry
  split
  · split
    · exact (enqueueRead_traffic s _ _ _).trans (setWork_traffic _ _)
    · split
      · exact (((enqueueWrite_traffic s _ _ _).trans (onEntryRec_traffic _ _ _ _)).trans (respondDone_traffic _ _)).trans
          (setWork_traffic _ _)
      · exact ((dropNewEntry_traffic s _).trans (refuse_traffic _ _ _ _)).trans (setWork_traffic _ _)
    · exact .refl s
  · exact .refl s

theorem enterLiveFill_traffic : Traffic s (enterLiveFill s) := by
  unfold enterLiveFill
  split
  · split
    · dsimp only
      split
      · exact (enqueueWrite_traffic s _ _ _).trans (setWork_traffic _ _)
      · exact ((enqueueWrite_traffic s _ _ _).trans (setWork_traffic _ _)).trans (beginWait_traffic _ _)
    · exact .refl s
  · exact .refl s

theorem enter_traffic (w : Waiter) : Traffic s (enter w s) := by
  cases w
  case front => exact enterFront_traffic s _
  case walk => exact enterWalk_traffic s _ _
  case updateRead => exact enterUpdateRead_traffic s _
  case entry => exact enterEntry_traffic s
  case liveFill => exact enterLiveFill_traffic s
  all_goals exact .refl s

theorem offer_traffic (w : Waiter) : Traffic s (offer w s) := Traffic.ite (enter_traffic s w) (beginWait_traffic s w)
theorem offerRead_traffic (t : Tag) (l : BackLine) : Traffic s (offerRead t l s) :=
  (setPhase_traffic s _ _).trans (offer_traffic _ _)
theorem offerWrite_traffic (t : Tag) (l : BackLine) (d : Line) : Traffic s (offerWrite t l d s) :=
  (setPhase_traffic s _ _).trans (offer_traffic _ _)

end Basic

section Translation

variable (s : State)

theorem insertPage_traffic (p : Page) (lock : Bool) : Traffic s (insertPage p lock s) := by
  unfold insertPage
  split
  · split
    · exact onXlat_traffic s _
    · exact raise_traffic s _
  · exact onXlat_traffic s _

theorem handToEntry_traffic (t : Tag) (p : Page) : Traffic s (handToEntry t p s) :=
  (setPhase_traffic s _ _).trans (onEntry_traffic _ _)

theorem serveKey_traffic (tag : Tag) (t : Txn) (p : Page) : Traffic s (serveKey tag t p s) := by
  unfold serveKey
  dsimp only
  split
  · exact offerRead_traffic s _ _
  · split
    · exact respondDone_traffic s _
    · split
      · exact offerWrite_traffic s _ _ _
      · exact offerRead_traffic s _ _

theorem classCheck_traffic (tag : Tag) (p : Page) : Traffic s (classCheck tag p s) := by
  unfold classCheck
  split
  · exact .refl s
  · split
    · exact refuse_traffic s _ _ _
    · split
      · exact refuse_traffic s _ _ _
      · exact Traffic.ite (serveKey_traffic s _ _ _) (refuse_traffic s _ _ _)
      · exact serveKey_traffic s _ _ _
      · exact serveKey_traffic s _ _ _
      · exact Traffic.ite (serveKey_traffic s _ _ _) (refuse_traffic s _ _ _)
      · exact handToEntry_traffic s _ _

theorem startWalk_traffic (d : DomId) (f : Fpn) (ws : List Tag) (lock : Bool) : Traffic s (startWalk d f ws lock s) :=
  (onXlat_traffic s _).trans (offer_traffic _ _)

theorem joinWalk_traffic (tag : Tag) (d : DomId) (f : Fpn) : Traffic s (joinWalk tag d f s) :=
  (setPhase_traffic s _ _).trans (onXlat_traffic _ _)

theorem waitForWalk_traffic (tag : Tag) (r : Bool) : Traffic s (waitForWalk tag r s) :=
  (setPhase_traffic s _ _).trans (onXlat_traffic _ _)

theorem placeMiss_traffic (tag : Tag) (d : DomId) (f : Fpn) : Traffic s (placeMiss tag d f s) := by
  unfold placeMiss
  split
  · exact joinWalk_traffic s _ _ _
  · exact Traffic.ite ((setPhase_traffic s _ _).trans (startWalk_traffic _ _ _ _ _)) (waitForWalk_traffic s _ _)
  · exact waitForWalk_traffic s _ _

theorem lookupKey_traffic (tag : Tag) (t : Txn) : Traffic s (lookupKey tag t s) := by
  unfold lookupKey
  dsimp only
  split
  · exact (onXlat_traffic s _).trans (classCheck_traffic _ _ _)
  · exact (onXlat_traffic s _).trans (placeMiss_traffic _ _ _ _)

theorem repeatLookup_traffic (w : WalkWaiting) : Traffic s (repeatLookup w s) := by
  unfold repeatLookup
  dsimp only
  split
  · exact onXlat_traffic s _
  · split
    · exact (onXlat_traffic s _).trans (refuse_traffic _ _ _ _)
    · split
      · exact ((onXlat_traffic s _).trans (onXlat_traffic _ _)).trans (classCheck_traffic _ _ _)
      · split
        · exact (onXlat_traffic s _).trans (joinWalk_traffic _ _ _ _)
        · exact ((onXlat_traffic s _).trans (setPhase_traffic _ _ _)).trans (startWalk_traffic _ _ _ _ _)
        · exact onXlat_traffic s _

theorem serveWaiter_traffic (page : Option Page) (tag : Tag) : Traffic s (serveWaiter page s tag) := by
  unfold serveWaiter
  split
  · exact .refl s
  · split
    · exact refuse_traffic s _ _ _
    · split
      · exact refuse_traffic s _ _ _
      · exact classCheck_traffic s _ _

theorem answerLock_traffic (c : AnsCode) : Traffic s (answerLock c s) := onLink_traffic s _

theorem finishWalk_traffic (w : Walk) (line : Line) : Traffic s (finishWalk w line s) := by
  unfold finishWalk
  dsimp only
  generalize Desc.page _ _ _ _ = page
  generalize hl : s.onXlat _ = left
  have h0 : Traffic s left := hl ▸ onXlat_traffic s _
  have h : Traffic s (w.waiters.foldl (serveWaiter page) left) :=
    h0.trans (Traffic.foldl (fun u a => serveWaiter_traffic u page a) _ _)
  generalize w.waiters.foldl (serveWaiter page) left = served at h ⊢
  generalize lockAnswer page w.stale (domState s w.dom) = c
  have k : Traffic s (if w.lock = true then answerLock c served else served) :=
    Traffic.ite (h.trans (answerLock_traffic _ _)) h
  cases page with
  | none => exact k
  | some p => exact Traffic.ite (k.trans (insertPage_traffic _ _ _)) k

theorem servePlain_traffic (tag : Tag) (t : Txn) : Traffic s (servePlain tag t s) := by
  unfold servePlain
  split
  · exact offerRead_traffic s _ _
  · exact Traffic.ite (respondDone_traffic s _) (offerWrite_traffic s _ _ _)

theorem serveRaw_traffic (tag : Tag) (t : Txn) : Traffic s (serveRaw tag t s) := by
  unfold serveRaw
  dsimp only
  split
  · exact offerRead_traffic s _ _
  · exact Traffic.ite (respondDone_traffic s _) (Traffic.ite (offerWrite_traffic s _ _ _) (offerRead_traffic s _ _))

theorem serveMap_traffic (tag : Tag) (t : Txn) : Traffic s (serveMap tag t s) := by
  unfold serveMap
  dsimp only
  split
  · exact Traffic.ite (setPhase_traffic s _ _) (offerRead_traffic s _ _)
  · exact Traffic.ite (respondDone_traffic s _) ((setPhase_traffic s _ _).trans (onMaps_traffic _ _))

theorem admitKey_traffic (tag : Tag) (t : Txn) : Traffic s (admitKey tag t s) :=
  Traffic.ite (lookupKey_traffic s _ _) (refuse_traffic s _ _ _)

theorem startTxn_traffic (tag : Tag) : Traffic s (startTxn tag s) := by
  unfold startTxn
  split
  · exact .refl s
  · dsimp only
    generalize hl : onSlot tag _ s = left
    refine Traffic.trans (hl ▸ onSlot_traffic s tag _ : Traffic s left) ?_
    split
    · exact refuse_traffic _ _ _ _
    · exact Traffic.ite (refuse_traffic _ _ _ _) (servePlain_traffic _ _ _)
    · exact Traffic.ite (admitKey_traffic _ _ _) (refuse_traffic _ _ _ _)
    · exact Traffic.ite (refuse_traffic _ _ _ _) (Traffic.ite (refuse_traffic _ _ _ _)
        (Traffic.ite (refuse_traffic _ _ _ _) (serveMap_traffic _ _ _)))
    · exact Traffic.ite (refuse_traffic _ _ _ _) (Traffic.ite (refuse_traffic _ _ _ _)
        (Traffic.ite (refuse_traffic _ _ _ _) (serveRaw_traffic _ _ _)))

theorem accept_traffic (t : Txn) : Traffic s (accept t s) := by
  unfold accept
  dsimp only
  exact Traffic.ite (onFront_traffic s _) ((onFront_traffic s _).trans (startTxn_traffic _ _))

end Translation

section Entry

variable (s : State)

theorem offerPart_traffic (p : PartUpdate) : Traffic s (offerPart p s) := onMaps_traffic s _

theorem beginComponent_traffic (tag : Tag) (t : Txn) (b : Bpn) (x : Custodian) (a : CompAction) :
    Traffic s (beginComponent tag t b x a s) := by
  unfold beginComponent
  dsimp only
  generalize hl : setPhase tag _ s = left
  refine Traffic.trans (hl ▸ setPhase_traffic s tag _ : Traffic s left) ?_
  split
  · exact ((onEntry_traffic _ _).trans (setWork_traffic _ _)).trans (offerPart_traffic _ _)
  · exact (setWork_traffic _ _).trans (offer_traffic _ _)
  · exact ((onEntryRec_traffic _ _ _ _).trans (setWork_traffic _ _)).trans (offerPart_traffic _ _)
  · exact (setWork_traffic _ _).trans (offer_traffic _ _)

theorem beginEntry_traffic (x : Option Custodian) (e : EntryRec) (st : FinStage) (rest) :
    Traffic s (beginEntry x e st rest s) := by
  unfold beginEntry
  dsimp only
  split
  · exact ((onEntryRec_traffic s _ _ _).trans (setWork_traffic _ _)).trans (offerPart_traffic _ _)
  · exact (setWork_traffic s _).trans (offerPart_traffic _ _)
  · exact (setWork_traffic s _).trans (beginWait_traffic _ _)
  · exact (setWork_traffic s _).trans (offerPart_traffic _ _)
  · exact (setWork_traffic s _).trans (offerPart_traffic _ _)
  · exact (setWork_traffic s _).trans (offerPart_traffic _ _)

theorem advanceFin_traffic (x : Option Custodian) (l : List (DomId × Fpn)) : Traffic s (advanceFin x l s) := by
  induction l with
  | nil => exact (setWork_traffic s _).trans (raise_traffic _ _)
  | cons p l ih =>
    unfold advanceFin
    split
    · exact ih
    · split
      · exact ih
      · exact beginEntry_traffic s _ _ _ _

theorem beginFin_traffic (x : Option Custodian) : Traffic s (beginFin x s) := advanceFin_traffic s _ _

theorem advanceAbandon_traffic (l : List PartUpdate) : Traffic s (advanceAbandon l s) := by
  cases l
  · exact setWork_traffic s _
  · exact (setWork_traffic s _).trans (offerPart_traffic _ _)

theorem dropComponent_traffic (c : CompOp) : Traffic s (dropComponent c s) :=
  ((refuse_traffic s _ _ _).trans (endWait_traffic _ _)).trans (setWork_traffic _ _)

theorem partComplete_traffic : Traffic s (partComplete s) := by
  unfold partComplete
  split
  · split
    · split
      · exact (setWork_traffic s _).trans (offer_traffic _ _)
      · exact (setWork_traffic s _).trans (offer_traffic _ _)
      · exact .refl s
    · exact dropComponent_traffic s _
  · split
    · exact ((removeEntry_traffic s _ _).trans (raise_traffic _ _)).trans (advanceFin_traffic _ _ _)
    · exact (removeEntry_traffic s _ _).trans (advanceFin_traffic _ _ _)
    · exact advanceFin_traffic s _ _
  · exact advanceAbandon_traffic s _
  · exact .refl s

theorem failPage_traffic (p : DomId × Fpn) : Traffic s (failPage s p) :=
  Traffic.ite ((removeEntry_traffic s _ _).trans (raise_traffic _ _)) (.refl s)

theorem partFailed_traffic (pages : List (DomId × Fpn)) : Traffic s (partFailed pages s) := by
  unfold partFailed
  dsimp only
  generalize hl : pages.foldl failPage s = left
  refine Traffic.trans (hl ▸ Traffic.foldl (fun u p => failPage_traffic u p) pages s : Traffic s left) ?_
  split
  · exact dropComponent_traffic _ _
  · exact advanceFin_traffic _ _ _
  · exact advanceAbandon_traffic _ _
  · exact .refl _

theorem kernelRetires_traffic (pages : List (DomId × Fpn)) : Traffic s (kernelRetires pages s) := by
  unfold kernelRetires
  dsimp only
  generalize hl : s.onEntry _ = left
  refine Traffic.trans (hl ▸ onEntry_traffic s _ : Traffic s left) ?_
  split
  · split
    · split
      · exact dropComponent_traffic _ _
      · exact dropComponent_traffic _ _
      · exact .refl _
    · exact .refl _
  · exact Traffic.ite ((endWait_traffic _ _).trans (advanceFin_traffic _ _ _)) (.refl _)
  · exact .refl _

end Entry

section Updates

variable (s : State)

theorem takeUpdate_traffic (r : UpdateRequest) : Traffic s (takeUpdate r s) := by
  unfold takeUpdate
  dsimp only
  generalize hl : markStale _ _ = left
  refine Traffic.trans (hl ▸ (onMaps_traffic s _).trans (markStale_traffic _ _) : Traffic s left) ?_
  split
  · exact Traffic.trans ((setPhase_traffic _ _ _).trans (onMaps_traffic _ _)) (Traffic.ite (.refl _) (offer_traffic _ _))
  · exact (onMaps_traffic _ _).trans (offer_traffic _ _)

theorem grantRoom_traffic (l : List MapLine) : Traffic s (grantRoom l s) := by
  induction l generalizing s with
  | nil => exact onMaps_traffic s _
  | cons k l ih =>
    unfold grantRoom
    split
    · exact ih s
    · split
      · exact ((onUpdate_traffic s _ _).trans (beginWait_traffic _ _)).trans (ih _)
      · exact onMaps_traffic s _

theorem enterWriting_traffic (k : MapLine) (a b : Line) (fs : List Fill) (h : Bool) (rs : List (DomId × Fpn)) :
    Traffic s (enterWriting k a b fs h rs s) := by
  unfold enterWriting
  dsimp only
  split
  · exact (onUpdate_traffic s _ _).trans (beginWait_traffic _ _)
  · exact ((onUpdate_traffic s _ _).trans (onMaps_traffic _ _)).trans (grantRoom_traffic _ _)

theorem leaveUpdates_traffic (k : MapLine) : Traffic s (leaveUpdates k s) := onMaps_traffic s _

theorem updateArrived_traffic (u : UpdateEntry) (l : Line) : Traffic s (updateArrived u l s) := by
  unfold updateArrived
  dsimp only
  split
  · split
    · exact .refl s
    · exact enterWriting_traffic s _ _ _ _ _ _
  · split
    · exact enterWriting_traffic s _ _ _ _ _ _
    · exact (leaveUpdates_traffic s _).trans (partFailed_traffic _ _)

theorem reportHeld_traffic (tag : Tag) : Traffic s (reportHeld tag s) := by
  unfold reportHeld
  split
  · exact .refl s
  · exact report_traffic s _

theorem handOn_traffic (u : UpdateEntry) : Traffic s (handOn u s) := by
  unfold handOn
  split
  · dsimp only
    generalize hl : respondDone _ _ = left
    have h : Traffic s left := hl ▸ (Traffic.foldl (fun v (p : DomId × Fpn) => pageDemap_traffic v p.1 p.2) _ s).trans
      ((kernelRetires_traffic _ _).trans (respondDone_traffic _ _))
    exact Traffic.ite (h.trans (reportHeld_traffic _ _)) h
  · exact (Traffic.foldl (fun v (c : PartChange) => onXlat_traffic v _) _ s).trans (partComplete_traffic _)

theorem sendUpdate_traffic (u : UpdateEntry) (key : LineKey) : Traffic s (sendUpdate u key s) :=
  ((((enqueueWrite_traffic s _ _ _).trans (endWait_traffic _ _)).trans (leaveUpdates_traffic _ _)).trans
    (onMaps_traffic _ _)).trans (handOn_traffic _ _)

theorem keepFills_traffic (keep : Fill → Bool) : Traffic s (keepFills keep s) := by
  unfold keepFills
  dsimp only
  split
  · exact (onMaps_traffic s _).trans (grantRoom_traffic _ _)
  · exact ((endWait_traffic s _).trans (onMaps_traffic _ _)).trans (grantRoom_traffic _ _)

theorem dropOldestFill_traffic : Traffic s (dropOldestFill s) :=
  ((endWait_traffic s _).trans (onMaps_traffic _ _)).trans (grantRoom_traffic _ _)

theorem sendFill_traffic (x : Fill) (key : LineKey) : Traffic s (sendFill x key s) := by
  unfold sendFill
  dsimp only
  generalize hl : enqueueWrite _ _ _ _ = sent
  refine Traffic.trans (hl ▸ enqueueWrite_traffic s _ _ _ : Traffic s sent) ?_
  exact Traffic.ite ((endWait_traffic sent _).trans (onMaps_traffic _ _)) (dropOldestFill_traffic sent)

end Updates

section Bursts

variable (s : State)

theorem takeBurst_traffic (x : Burst) : Traffic s (takeBurst x s) := onBack_traffic s _

theorem frontRead_traffic (x : Slot) (b : BackLine) (l : Line) : Traffic s (frontRead x b l s) := by
  unfold frontRead
  dsimp only
  split
  · split
    · exact refuse_traffic s _ _ _
    · split
      · exact respond_traffic s _ _ _
      · exact offerWrite_traffic s _ _ _
  · split
    · exact .refl s
    · exact respond_traffic s _ _ _
  · split
    · exact respond_traffic s _ _ _
    · exact offerWrite_traffic s _ _ _
  · exact respond_traffic s _ _ _

theorem walkArrives_traffic (w : Walk) (x : Burst) : Traffic s (walkArrives w x s) := by
  unfold walkArrives
  split
  · exact (takeBurst_traffic s _).trans (finishWalk_traffic _ _ _)
  · exact takeBurst_traffic s _

theorem updateArrives_traffic (u : UpdateEntry) (x : Burst) : Traffic s (updateArrives u x s) := by
  unfold updateArrives
  split
  · exact (takeBurst_traffic s _).trans (updateArrived_traffic _ _ _)
  · exact takeBurst_traffic s _

theorem combineArrives_traffic (c : CompOp) (x : Burst) : Traffic s (combineArrives c x s) := by
  unfold combineArrives
  split
  · exact ((takeBurst_traffic s _).trans (setWork_traffic _ _)).trans (offer_traffic _ _)
  · exact ((takeBurst_traffic s _).trans (refuse_traffic _ _ _ _)).trans (setWork_traffic _ _)

theorem readArrives_traffic (x : Burst) : Traffic s (readArrives x s) := by
  unfold readArrives
  split
  · split
    · exact (takeBurst_traffic s _).trans (frontRead_traffic _ _ _ _)
    · exact takeBurst_traffic s _
  · split
    · exact walkArrives_traffic s _ _
    · exact takeBurst_traffic s _
  · split
    · exact updateArrives_traffic s _ _
    · exact takeBurst_traffic s _
  · split
    · exact combineArrives_traffic s _ _
    · exact takeBurst_traffic s _
  · exact takeBurst_traffic s _
  · exact takeBurst_traffic s _

end Bursts

section Rows

variable (s : State)

theorem presentTxn_traffic (t : Txn) : Traffic s (presentTxn t s) :=
  Traffic.ite (Traffic.ite (accept_traffic s t) (onFront_traffic s _)) (.refl s)

theorem acceptHeld_traffic : Traffic s (acceptHeld s) := by
  unfold acceptHeld
  split
  · exact Traffic.ite ((onFront_traffic s _).trans (accept_traffic _ _)) (.refl s)
  · exact .refl s

theorem startFollowing_traffic (tag : Tag) : Traffic s (startFollowing tag s) := by
  unfold startFollowing
  split
  · exact Traffic.ite (startTxn_traffic s tag) (.refl s)
  · exact .refl s

theorem startNext_traffic (l : FrontLine) : Traffic s (startNext l s) := by
  unfold startNext
  split
  · exact Traffic.ite (startTxn_traffic s _) (.refl s)
  · exact .refl s

theorem deliver_traffic (tag : Tag) : Traffic s (deliver tag s) := by
  unfold deliver
  split
  · split
    · exact Traffic.ite ((onFront_traffic s _).trans (startNext_traffic _ _)) (.refl s)
    · exact .refl s
  · exact .refl s

theorem queueEntry_traffic : Traffic s (queueEntry s) := by
  have h (w : Waiter) : Traffic s (if live s = true then enter w (endWait w s) else s) :=
    Traffic.ite ((endWait_traffic s _).trans (enter_traffic _ _)) (.refl s)
  unfold queueEntry
  cases firstReady s with
  | none => exact .refl s
  | some w =>
    cases w
    case fill => exact .refl s
    case updateWrite => exact .refl s
    case background => exact .refl s
    all_goals exact h _

theorem completeWalk_traffic : Traffic s (completeWalk s) := by
  unfold completeWalk
  split
  · split
    · exact Traffic.ite (walkArrives_traffic s _ _) (.refl s)
    · exact .refl s
  · exact .refl s

theorem repeatFirst_traffic : Traffic s (repeatFirst s) := by
  unfold repeatFirst
  split
  · exact Traffic.ite (repeatLookup_traffic s _) (.refl s)
  · exact .refl s

theorem resumeMapRead_traffic (tag : Tag) : Traffic s (resumeMapRead tag s) := by
  unfold resumeMapRead
  split
  · exact Traffic.ite (offerRead_traffic s _ _) (.refl s)
  · exact .refl s

theorem takePicked_traffic (pick : UpdatePick) : Traffic s (takePicked pick s) := by
  unfold takePicked
  split
  · exact Traffic.ite (takeUpdate_traffic s _) (.refl s)
  · exact .refl s

theorem arriveUpdate_traffic : Traffic s (arriveUpdate s) := by
  unfold arriveUpdate
  split
  · split
    · exact Traffic.ite (updateArrives_traffic s _ _) (.refl s)
    · exact .refl s
  · exact .refl s

theorem writeUpdate_traffic (k : MapLine) : Traffic s (writeUpdate k s) := by
  unfold writeUpdate
  split
  · exact Traffic.ite (sendUpdate_traffic s _ _) (.refl s)
  · exact .refl s

theorem releaseMerge_traffic (k : MapLine) : Traffic s (releaseMerge k s) := by
  unfold releaseMerge
  split
  · exact Traffic.ite ((onUpdate_traffic s _ _).trans (offer_traffic _ _)) (.refl s)
  · exact .refl s

theorem writeFill_traffic : Traffic s (writeFill s) := by
  unfold writeFill
  split
  · exact .refl s
  · split
    · split
      · exact dropOldestFill_traffic s
      · exact Traffic.ite (sendFill_traffic s _ _) (beginWait_traffic s _)
    · exact .refl s

theorem takeOp_traffic : Traffic s (takeOp s) := onEntry_traffic s _

theorem nextComponent_traffic : Traffic s (nextComponent s) := by
  unfold nextComponent
  split
  · unfold takeComponent
    split
    · exact takeOp_traffic s
    · split
      · exact (takeOp_traffic s).trans (refuse_traffic _ _ _ _)
      · exact (takeOp_traffic s).trans (beginComponent_traffic _ _ _ _ _ _)
  · exact .refl s

theorem arriveCombine_traffic : Traffic s (arriveCombine s) := by
  unfold arriveCombine
  split
  · split
    · exact Traffic.ite (combineArrives_traffic s _ _) (.refl s)
    · exact .refl s
  · exact .refl s

theorem nextFinalisation_traffic : Traffic s (nextFinalisation s) := by
  unfold nextFinalisation
  split
  · exact (takeOp_traffic s).trans (beginFin_traffic _ _)
  · exact .refl s

theorem completeLiveFill_traffic : Traffic s (completeLiveFill s) := by
  unfold completeLiveFill
  split
  · split
    · exact Traffic.ite ((setWork_traffic s _).trans (offerPart_traffic _ _)) (.refl s)
    · exact .refl s
  · exact .refl s

theorem nextDeferred_traffic : Traffic s (nextDeferred s) := by
  unfold nextDeferred
  split
  · exact (takeOp_traffic s).trans (beginFin_traffic _ _)
  · exact .refl s

theorem nextAbandonment_traffic : Traffic s (nextAbandonment s) := by
  unfold nextAbandonment
  split
  · exact Traffic.trans (takeOp_traffic s)
      (((onEntry_traffic _ _).trans (raiseIf_traffic _ _ _)).trans (advanceAbandon_traffic _ _))
  · exact .refl s

theorem finishRead_traffic : Traffic s (finishRead s) := by
  unfold finishRead
  split
  · exact Traffic.ite (readArrives_traffic s _) (.refl s)
  · exact .refl s

end Rows

end Sys2Proof.Machine
end

