-- ==== Sys2Proof/Tests/Slice0.lean ====
section
/-! SUPPORT. The model's own tests: what well-formedness refuses, the manual's worked values, and for each statement with
hypotheses a state and operands that meet them, at the boundaries of its clauses. -/

namespace Sys2Proof.Tests

open Sys2Proof.Machine

/-! ## Well-formedness -/

/-- UNKNOWN does not carry a code of the table: 0x01 is STATUS (R194). -/
theorem test_unknown_with_table_code_refused : WellFormed (.unknown 0x01#8 { addr := 0x4C#7, args := [] }) = false := by
  decide

/-- A CONFIGURE row does not carry another row's item: item 2 is the back timing (R201). -/
theorem test_configure_with_other_item_refused :
    WellFormed (.configurePab { addr := 0x4C#7, args := [2#8, 0#8, 0#8, 0#8, 0#8, 0#8, 0#8, 0#8] }) = false := by decide

/-- Code 0x56 is none of the 29, and item 11 is none of the ten (R194, R201). -/
theorem test_well_formed :
    WellFormed (.unknown 0x56#8 { addr := 0x4C#7, args := [] }) = true ∧
    WellFormed (.configurePab { addr := 0x4C#7, args := [11#8, 0#8, 0#8, 0#8, 0#8, 0#8, 0#8, 0#8] }) = true := by decide

/-! ## Worked values of the manual -/

/-- The worked case of chapter 2: front line 0x8012_3A40 of domain 5 with PAB 0x3800_0000. -/
theorem test_worked_key_window_read :
    keyFpn (BitVec.ofNat 26 (0x80123A40 / 64)) = 291#14 ∧ keyPageIndex (BitVec.ofNat 26 (0x80123A40 / 64)) = 41#6 ∧
    mapLineOf 5#6 291#14 = 10276#17 ∧ (descIndex 291#14).val = 3 ∧
    backAddr (mapBackLine 7#4 (mapLineOf 5#6 291#14)) = 0x3C0A0900 ∧ setIndex 5#6 291#14 = 131#8 := by decide

/-- Domain 1's page 0 and domain 0's page 128 share set 128; domain 2's page 0 is in set 64 (R23). -/
theorem test_set_index : setIndex 1#6 0#14 = 128#8 ∧ setIndex 0#6 128#14 = 128#8 ∧ setIndex 2#6 0#14 = 64#8 := by decide

/-- Codes of chapter 8's converter: 0 below 0 V, 255 from 2.490234375 V, steps of 9.765625 mV (R144). -/
theorem test_conversion_codes :
    conversionCode (-1) = 0#8 ∧ conversionCode 2490234375 = 255#8 ∧ conversionCode 2490234374 = 254#8 ∧
    conversionCode 9765625 = 1#8 ∧ conversionCode 9765624 = 0#8 := by decide

/-- With the defaults the normal output is high in phases 2 to 31, the counter-phase output in 34 to 63 (R151). -/
theorem test_mesh_outputs :
    ({ Mesh.reset with phase := 2 }).outputs = (true, false) ∧ ({ Mesh.reset with phase := 31 }).outputs = (true, false) ∧
    ({ Mesh.reset with phase := 33 }).outputs = (false, false) ∧ ({ Mesh.reset with phase := 34 }).outputs = (false, true) ∧
    ({ Mesh.reset with phase := 63 }).outputs = (false, true) := by decide

/-- A descriptor word written out by R203: valid, KEY, LIVE, custodian B, epoch 3, BPN 5, owner bits 1. -/
theorem test_descriptor_fields : Desc.ofBits 0x400503C5#64 =
    { valid := 1#1, cls := 2#2, kernelOnly := 0#1, life := 4#3, cust := 1#1, epoch := 3#8, bpn := 5#14, owner := 1#34 } := by
  decide

/-! ## Small states -/

/-- BLANK with START-UP over. -/
def up : State := { State.reset with back := { State.reset.back with startUp := none } }

/-- READY: domain 1 OPEN with a lease of one pulse, domain 2 CLOSED, the rest VACANT. -/
def ready : State :=
  { up with
    cab := { up.cab with cabinet := .ready }
    seeds := { up.seeds with
      root := some 1#256, domains := ((up.seeds.domains.set 0 (some 2#256)).set 1 (some 3#256)).set 2 (some 4#256) }
    doms := (up.doms.set 1 { state := .opened, epoch := 0#8, lease := 1#16, staged := none, ending := false }).set 2
      { state := .closed, epoch := 0#8, lease := 0#16, staged := none, ending := false } }

/-- A transaction to the front line at an address. -/
def txn (tag : Tag) (dir : Direction) (addr : Nat) (dom : DomId) (priv : Privilege) : Txn :=
  { tag := tag, dir := dir, line := BitVec.ofNat 26 (addr / 64), beat := 0#3, dom := dom, priv := priv, data := zeroLine
    enables := allMarks }

/-- A transaction with these byte enables. -/
def masked (m : Marks) (t : Txn) : Txn := { t with enables := m }

/-- A slot. -/
def slot (t : Txn) (r : Region) (ph : Phase) : Slot := { txn := t, region := some r, phase := ph, keyLost := false }

/-- A state with these outstanding transactions. -/
def withSlots (l : List Slot) (s : State) : State := { s with front := { s.front with slots := l } }

/-- A READY state in domain 1's custody: domain 1 is the entry domain, and custodian A's window alone is OPEN. -/
def ceremony : State :=
  { ready with entry := { ready.entry with
    domain := some 1#6, windowA := { state := .opened, remaining := 1#16, ending := false } } }

/-- A burst of a request that ends at clock 20. -/
def burst (write : Bool) (o : Origin) (l : BackLine) : Burst :=
  { req := newRequest 7 write l o 0#3 zeroLine 0#64, start := 16, finish := 20 }

/-- A state whose oldest burst is this one. -/
def withBurst (b : Burst) (s : State) : State := { s with back := { s.back with bursts := [b], clock := 19, nextId := 8 } }

/-- An Update List entry's state and origin in a state. -/
def withUpdate (u : UpdateEntry) (s : State) : State := { s with maps := { s.maps with updates := [u] } }

/-- A frame to the part of the state, with these argument bytes. -/
def frame (args : List Byte) : Frame := { addr := 0x4C#7, args := args }

/-- No lease and no window of these states has ended at a run pulse. -/
theorem ready_taken : PulseTaken ready := fun _ => ⟨by decide, by rintro (_ | _) <;> decide⟩

theorem up_taken : PulseTaken up := fun _ => ⟨by decide, by rintro (_ | _) <;> decide⟩

theorem ceremony_taken : PulseTaken ceremony := fun _ => ⟨by decide, by rintro (_ | _) <;> decide⟩

/-! ## Witnesses: the queue and the front port -/

theorem witness_StepTakesFront :
    ({ State.reset with pending := [.runPulse, .mainsLoss] }).pending = Instr.runPulse :: [.mainsLoss] := rfl

/-- A read of front line 0. -/
def read0 (tag : Tag) : Txn := txn tag .read 0 0#6 .app

/-- Sixteen transactions, tags 0 to 15. -/
def full : State :=
  withSlots ((List.finRange 16).map fun i =>
    slot (txn (BitVec.ofNat 4 i.val) .read (64 * i.val) 0#6 .app) .plain (.readWait 0#25)) up

/-- One transaction to front line 0, tag 1. -/
def one : State := withSlots [slot (read0 1#4) .plain (.readWait 0#25)] up

/-- A state with a transaction held at the port. -/
def holding (t : Txn) (s : State) : State := { s with front := { s.front with held := some t } }

theorem witness_PortHoldsAndOrders :
    (live full = true ∧ full.front.held = none ∧ PulseTaken full ∧ 16 ≤ full.front.slots.length) ∧
    (live one = true ∧ one.front.held = none ∧ PulseTaken one ∧
      ∃ x ∈ one.front.slots, x.txn.tag = (txn 1#4 .write 64 0#6 .app).tag) ∧
    ((holding (read0 1#4) one).front.held = some (read0 1#4) ∧ PulseTaken (holding (read0 1#4) one) ∧
      ∃ x ∈ (holding (read0 1#4) one).front.slots, x.txn.tag = (read0 1#4).tag) ∧
    ((holding (read0 1#4) full).front.held = some (read0 1#4) ∧ 16 ≤ (holding (read0 1#4) full).front.slots.length) ∧
    ((∃ x ∈ one.front.slots, x.txn.line = (read0 2#4).line) ∧ Presentable (read0 2#4) one) ∧
    (holding (read0 2#4) one).front.held = some (read0 2#4) ∧
      Presentable (read0 2#4) { holding (read0 2#4) one with front := { (holding (read0 2#4) one).front with held := none } } := by
  unfold Presentable
  exact ⟨⟨by decide, rfl, up_taken, by decide⟩, ⟨by decide, rfl, up_taken, by decide⟩, ⟨rfl, up_taken, by decide⟩,
    ⟨rfl, by decide⟩, by decide, rfl, by decide⟩

/-- A transaction that is presented starts; so does one accepted from the hold, and one FOLLOWING once it is the oldest to
its line. -/
theorem witness_starts (t : Txn) (s : State) (h : Presentable t s) (hf : LineFree t.line s) :
    (∃ s₀, StartsAs (.frontTransaction t) t s s₀) ∧ (∃ s₀, StartsAs .heldTransactionAccepted t (holding t s) s₀) ∧
    ∃ s₀, StartsAs (.followingStart t.tag) t (withSlots [newSlot t] s) s₀ := by
  have hh : { holding t s with front := { (holding t s).front with held := none } } = s := by
    simp [holding, ← h.2.1]
  refine ⟨⟨_, .inl ⟨rfl, h, hf, rfl⟩⟩, ⟨_, .inr (.inl ⟨rfl, rfl, by rwa [hh], hf, rfl⟩)⟩, _,
    .inr (.inr ⟨rfl, h.1, rfl, newSlot t, ?_, rfl, rfl, rfl, ?_⟩)⟩
  · simp [findSlot, withSlots, newSlot]
  · simp [oldestOnLine, withSlots, newSlot]

/-- The states that the witnesses start from take any transaction. -/
theorem witness_presentable (t : Txn) : ∀ s, s = ready ∨ s = up → PulseTaken s ∧ Presentable t s ∧ LineFree t.line s := by
  rintro s (rfl | rfl)
  · exact ⟨ready_taken, ⟨rfl, rfl, by decide, fun x hx => by cases hx⟩, fun x hx => by cases hx⟩
  · exact ⟨up_taken, ⟨rfl, rfl, by decide, fun x hx => by cases hx⟩, fun x hx => by cases hx⟩

/-- The lines at the ends of each region, and the states that let their transactions start. -/
theorem witness_TransactionStarts_regions :
    (∀ a, a = 0 ∨ a = 0x77FFFFC0 → regionOf (txn 0#4 .read a 0#6 .app).line = .plain ∧
      inProtectedArea ready.front.pabCopy (plainLine (txn 0#4 .read a 0#6 .app).line) = false) ∧
    (regionOf (txn 0#4 .read 0x7FFFFFC0 0#6 .app).line = .plain ∧ up.cab.cabinet = .blank) ∧
    (∀ a, a = 0x80000000 ∨ a = 0x83FFFFC0 → regionOf (txn 0#4 .read a 1#6 .app).line = .key) ∧
    (∀ a, a = 0x84000000 ∨ a = 0x847FFFC0 → regionOf (txn 0#4 .read a 0#6 .kernel).line = .map) ∧
    (∀ a, a = 0x88000000 ∨ a = 0x8C7FFFC0 → regionOf (txn 0#4 .read a 0#6 .kernel).line = .raw) ∧
    ready.cab.cabinet = .ready ∧ (txn 0#4 .read 0x84000000 0#6 .kernel).dom = 0#6 ∧
    (txn 0#4 .read 0x84000000 0#6 .kernel).priv = .kernel ∧ domState ready 1#6 = .opened ∧ domState ready 2#6 = .closed := by
  refine ⟨?_, by decide, ?_, ?_, ?_, by decide⟩ <;> (rintro a (rfl | rfl) <;> decide)

/-- READY with these walks, and so many transactions that wait for one, released or not. -/
def lookingUp (walks : List Walk) (waiting : Nat) (rel : Bool) : State :=
  { ready with xlat := { ready.xlat with
    walks := walks, waiting := (List.range waiting).map fun n => { tag := BitVec.ofNat 4 (n + 8), released := rel } } }

/-- A walk of a page of domain 1. -/
def walkOf (f : Fpn) (stale : Bool) : Walk :=
  { dom := 1#6, fpn := f, stale := stale, waiters := [], lock := false, req := none }

/-- Domain 1's page 0, as a buffer holds it. -/
def page0 : Page := { dom := 1#6, fpn := 0#14, bpn := 0#14, cls := .dataRw, kernelOnly := false, life := .empty }

/-- READY with domain 1's page 0 in the Fixed Buffer. -/
def inFixed : State :=
  { ready with xlat := ready.xlat.onFixed 15 fun _ => { held := { valid := true, fields := page0 }, lock := true, used := false } }

/-- READY with domain 1's page 0 in a way of the Set Buffer. -/
def inSet (way1 : Bool) : State :=
  { ready with xlat := ready.xlat.onSet (setIndex 1#6 0#14) fun r =>
    if way1 then { r with way1 := { valid := true, fields := page0 } } else { r with way0 := { valid := true, fields := page0 } } }

/-- A page that the Fixed Buffer holds, or a way of the Set Buffer, is found. -/
theorem witness_Finds :
    (∃ t', Finds 1#6 0#14 inFixed.xlat page0 t') ∧ ∀ way1, ∃ t', Finds 1#6 0#14 (inSet way1).xlat page0 t' := by
  refine ⟨⟨_, .inl ⟨15, by decide, by decide, rfl⟩⟩, fun way1 => ⟨_, .inr ⟨?_, way1, rfl, ?_, ?_⟩⟩⟩ <;> cases way1 <;> decide

/-- Seven updates of map lines 1 to 7, none of line 0; and the walk limits: three walks, two walks with one released
transaction to place, four walks, three with one released, an unstale and a stale walk of the pair. -/
theorem witness_TransactionStarts_waits :
    (∃ s : State, s.cab.cabinet = .ready ∧ mayEnter (.front 0#4) s = true ∧
      ∃ v ∈ s.maps.updates, v.line = mapWindowLine (txn 0#4 .read 0x84000000 0#6 .kernel).line) ∧
    (∀ v ∈ ready.maps.updates, v.line ≠ mapWindowLine (txn 0#4 .read 0x84000000 0#6 .kernel).line) ∧
    mayEnter (.front 0#4) ready = true ∧
    (∃ s : State, s.cab.cabinet = .ready ∧ s.maps.updates = [] ∧ mayEnter (.front 0#4) s = false) ∧
    (masked 0#64 (txn 0#4 .write 0x84000000 0#6 .kernel)).enables = 0#64 ∧
    (txn 0#4 .write 0x84000000 0#6 .kernel).enables ≠ 0#64 ∧
    (∀ s, s = lookingUp [walkOf 1#14 false, walkOf 2#14 false, walkOf 3#14 false] 0 true ∨
        s = lookingUp [walkOf 1#14 false, walkOf 2#14 false] 1 true →
      Misses 1#6 0#14 s.xlat ∧ s.xlat.walkFor 1#6 0#14 = none ∧
      s.xlat.walks.length + (s.xlat.waiting.filter fun v => v.released).length = 3) ∧
    (Misses 1#6 0#14 (lookingUp [walkOf 0#14 false] 0 true).xlat ∧
      (lookingUp [walkOf 0#14 false] 0 true).xlat.walkFor 1#6 0#14 = some (walkOf 0#14 false)) ∧
    (lookingUp [walkOf 0#14 true] 0 true).xlat.walkFor 1#6 0#14 = some (walkOf 0#14 true) ∧
    (lookingUp ((List.range 4).map fun n => walkOf (BitVec.ofNat 14 (n + 1)) false) 0 true).xlat.walks.length = 4 ∧
    (lookingUp [walkOf 1#14 false, walkOf 2#14 false, walkOf 3#14 false] 1 true).xlat.walks.length +
      ((lookingUp [walkOf 1#14 false, walkOf 2#14 false, walkOf 3#14 false] 1 true).xlat.waiting.filter
        fun v => v.released).length = 4 := by
  unfold Misses
  refine ⟨⟨{ ready with maps := { ready.maps with updates := [newUpdate 0#17 (.kernel 1#4) .waiting] } }, by decide⟩, by decide,
    by decide, ⟨{ ready with back := { ready.back with
      queue := (List.range 24).map fun i => newRequest i false 0#25 .front 0#3 zeroLine 0#64 } }, by decide⟩,
    by decide, by decide, ?_, by decide⟩
  rintro s (rfl | rfl) <;> decide

theorem witness_TransactionStarts : ∃ t s₀, t = txn 0#4 .read 0x80000000 1#6 .app ∧ PulseTaken ready ∧
    StartsAs (.frontTransaction t) t ready s₀ ∧ regionOf t.line = .key ∧ ready.cab.cabinet = .ready ∧
    domState ready t.dom = .opened ∧ Misses t.dom (keyFpn t.line) ready.xlat ∧
    ready.xlat.walkFor t.dom (keyFpn t.line) = none ∧
    ready.xlat.walks.length + (ready.xlat.waiting.filter fun v => v.released).length < 4 := by
  obtain ⟨hp, h, hf⟩ := witness_presentable (txn 0#4 .read 0x80000000 1#6 .app) ready (.inl rfl)
  obtain ⟨⟨s₀, hs⟩, -⟩ := witness_starts _ ready h hf
  unfold Misses
  exact ⟨_, s₀, rfl, hp, hs, by decide, by decide, by decide, by decide, by decide, by decide⟩

/-- A report gives way to a record of equal or higher rank and replaces one of lower rank, each time marked overwritten; the
count stops at 65535 (R183, R184). -/
theorem test_refusal_report :
    (∀ k, k = .shadow ∨ k = .denied →
      let held : Report := { txnReport (txn 0#4 .read 0 0#6 .app) .plain .shadow .noReason with kind := k }
      let new : Report := { held with kind := .shadow, tag := 1#4 }
      let e : EventUnit := { ready.ev with record := some held, count := 65535#16 }
      (e.take new).record = some held ∧ (e.take new).overwritten = true ∧ (e.take new).count = 65535#16) ∧
    let held : Report := txnReport (txn 0#4 .read 0 0#6 .app) .plain .absent .noReason
    let new : Report := { held with kind := .shadow, tag := 1#4 }
    let e : EventUnit := { ready.ev with record := some held, count := 65534#16 }
    (e.take new).record = some new ∧ (e.take new).overwritten = true ∧ (e.take new).count = 65535#16 := by
  refine ⟨?_, by decide⟩
  rintro k (rfl | rfl) <;> decide

theorem witness_StartRefusals :
    (∀ a ∈ [0x84800000, 0x87FFFFC0, 0x8C800000, 0xFFFFFFC0], regionOf (txn 0#4 .read a 0#6 .app).line = .unclaimed) ∧
    (∀ a ∈ [0x78000000, 0x7C7FFFC0], regionOf (txn 0#4 .read a 0#6 .app).line = .plain ∧
      inProtectedArea ready.front.pabCopy (plainLine (txn 0#4 .read a 0#6 .app).line) = true) ∧
    ready.cab.cabinet ≠ .blank ∧ up.cab.cabinet ≠ .ready ∧ up.cab.cabinet ≠ .restore ∧
    (txn 0#4 .read 0x84000000 1#6 .kernel).dom ≠ 0#6 ∧ (txn 0#4 .read 0x84000000 0#6 .app).priv = .app ∧
    domState ready 3#6 = .vacant ∧ domState ready 2#6 = .closed ∧ (∃ s, domState s 1#6 = .spent) ∧
    ∀ t, ∃ s₀, StartsAs (.frontTransaction t) t ready s₀ := by
  refine ⟨by decide, by decide, by decide, by decide, by decide, by decide, by decide, by decide, by decide,
    ⟨{ ready with doms := ready.doms.set 1 { ready.doms[1] with state := .spent } }, by decide⟩, fun t => ?_⟩
  obtain ⟨-, h, hf⟩ := witness_presentable t ready (.inl rfl)
  exact (witness_starts t ready h hf).1

/-- A read of front line 0 whose response is decided, ahead of a second one to the same line. -/
def decided : State :=
  withSlots [slot (read0 0#4) .plain (.responding .done zeroLine), slot (read0 1#4) .plain .following] up

/-- `decided` with the first transaction's slot FREE. -/
def freed (ph : Phase) : State := withSlots [slot (read0 1#4) .plain ph] up

theorem witness_ResponseDelivered :
    (PulseTaken decided ∧ live decided = true ∧ SlotLaw decided ∧ ∃ x, findSlot decided 0#4 = some x ∧ x.phase = .responding .done zeroLine ∧
      ∀ y ∈ decided.front.slots.takeWhile (fun z => z.txn.tag != 0#4), y.txn.line ≠ x.txn.line) ∧
    (∀ ph, ph = .following ∨ ph = .responding .done zeroLine → ∃ before y after,
      (freed ph).front.slots = before ++ y :: after ∧ y.txn.line = (read0 0#4).line ∧ y.phase = ph ∧
      ∀ z ∈ before, z.txn.line ≠ (read0 0#4).line) ∧
    LineFree 1#26 (freed .following) ∧
    ∃ u, exec (.responseDelivery 0#4) decided = .next u ∧ u ≠ decided := by
  unfold SlotLaw LineFree
  refine ⟨⟨up_taken, by decide, by decide, slot (read0 0#4) .plain (.responding .done zeroLine), by decide, rfl, by decide⟩,
    fun ph _ => ⟨[], slot (read0 1#4) .plain ph, [], rfl, rfl, rfl, fun z hz => by cases hz⟩, by decide, _, rfl,
    fun h => ?_⟩
  have : (deliver 0#4 (afterPulse decided)).front.slots.length = decided.front.slots.length := by rw [h]
  revert this
  decide

/-- The delivery starts the FOLLOWING transaction to its line, whose read enters the Back Queue (R14, R16). -/
theorem test_delivery_starts_following :
    (findSlot (deliver 0#4 decided) 1#4).map Slot.phase = some (.readOut 0#25 0) ∧
      (deliver 0#4 decided).back.queue.length = 1 := by decide

/-- A state in which these makers wait, with this slot. -/
def waiters (w : List Waiter) (x : Slot) (s : State) : State := withSlots [x] { s with back := { s.back with waiting := w } }

/-- A front transaction that waits to enter. -/
def waitingFront (t : Txn) (r : Region) (ph : Phase) (keyLost : Bool) : Slot := { slot t r ph with keyLost := keyLost }

/-- The key of a domain in `ready`. -/
def key (d : Seed) : LineKey := { root := 1#256, domain := d }

theorem witness_WaitingMakerEnters_front : ∀ x : Slot,
    (x = waitingFront (read0 0#4) .plain (.readWait 0#25) false ∨
      x = waitingFront (txn 0#4 .read 0x84000000 0#6 .kernel) .map (.readWait 0#25) false ∨
      x = waitingFront (read0 0#4) .plain (.writeWait 0#25 zeroLine) false ∨
      x = waitingFront (txn 0#4 .write 0x8C000000 0#6 .kernel) .raw (.writeWait 0#25 zeroLine) false ∨
      x = waitingFront (txn 0#4 .write 0x80000000 1#6 .app) .key (.writeWait 0#25 zeroLine) false ∨
      x = waitingFront (txn 0#4 .write 0x80000000 3#6 .app) .key (.writeWait 0#25 zeroLine) false ∨
      x = waitingFront (txn 0#4 .write 0x80000000 1#6 .app) .key (.writeWait 0#25 zeroLine) true) →
    live (waiters [.front 0#4] x ready) = true ∧ SlotLaw (waiters [.front 0#4] x ready) ∧
      firstReady (waiters [.front 0#4] x ready) = some (.front 0#4) ∧
      findSlot (waiters [.front 0#4] x ready) 0#4 = some x ∧ x.region.isSome = true := by
  unfold SlotLaw
  rintro x (rfl | rfl | rfl | rfl | rfl | rfl | rfl) <;> decide

/-- A component write of domain 1's page 0, line 1, at a stage. -/
def compAt (stage : CompStage) : CompOp :=
  { tag := 0#4, dom := 1#6, fpn := 0#14, line := 1#6, bpn := 0#14, combines := true, stage := stage }

/-- The entry of domain 1's page 0, its first component holding line 1. -/
def entry (phase : EntryPhase) (first : Custodian) (combined : Marks) : EntryRec :=
  { dom := 1#6, fpn := 0#14, bpn := 0#14, phase := phase, first := first, firstSet := 2#64, combinedSet := combined }

/-- A ceremony with this operation in progress, its page listed. -/
def working (w : EntryWork) : State :=
  { ceremony with entry := { ceremony.entry with list := [entry .second .b 0#64], work := some w } }

theorem witness_WaitingMakerEnters :
    (∀ n w, n = 12 ∧ w = .background ∨ n = 13 ∧ w = .entry ∨ n = 23 ∧ w = .entry →
      firstReady { ready with back := { ready.back with
        waiting := [.background, .entry], queue := (List.range n).map fun i => newRequest i false 0#25 .front 0#3 zeroLine 0#64 } } =
      some w) ∧
    (∀ w, w = .walk 1#6 0#14 ∨ w = .updateRead 0#17 → firstReady (waiters [w] (slot (read0 0#4) .plain .following) ready) = some w) ∧
    (∀ stage, stage = .reading none ∨ stage = .writing zeroLine →
      ∃ s y, live s = true ∧ firstReady s = some .entry ∧ s.entry.work = some (.component (compAt stage)) ∧
        findSlot s (compAt stage).tag = some y ∧ y.region = some .key ∧ (compAt stage).stage ≠ .firstUpdate ∧
        (compAt stage).stage ≠ .combineUpdate ∧ lineKey s (compAt stage).dom = some (key 3#256)) ∧
    ∀ left, left = [] ∨ left = [1#6] →
      ∃ s e, firstReady s = some .liveFill ∧
        s.entry.work = some (.finalising none 1#6 0#14 (.filling (0#6 :: left) []) []) ∧ findEntry s 1#6 0#14 = some e ∧
        lineKey s 1#6 = some (key 3#256) := by
  refine ⟨?_, ?_, ?_, ?_⟩
  · rintro n w (⟨rfl, rfl⟩ | ⟨rfl, rfl⟩ | ⟨rfl, rfl⟩) <;> decide
  · rintro w (rfl | rfl) <;> decide
  · intro stage h
    refine ⟨waiters [.entry] (slot (txn 0#4 .write 0x80000040 1#6 .app) .key .entryTaken) (working (.component (compAt stage))),
      slot (txn 0#4 .write 0x80000040 1#6 .app) .key .entryTaken, ?_⟩
    rcases h with rfl | rfl <;> decide
  · intro left h
    refine ⟨waiters [.liveFill] (slot (read0 0#4) .plain .following)
      (working (.finalising none 1#6 0#14 (.filling (0#6 :: left) []) [])), entry .second .b 0#64, ?_⟩
    rcases h with rfl | rfl <;> decide
/-! ## Witnesses: walks and the Map Unit -/

/-- READY with a walk of domain 1's page 0 whose line has come, and a transaction that waits for it. -/
def walked (w : Walk) : State :=
  withBurst (burst false .walk (mapBackLine 15#4 (mapLineOf 1#6 0#14)))
    { withSlots [slot (txn 0#4 .read 0x80000000 1#6 .app) .key .walkWaiter] ready with xlat := { ready.xlat with walks := [w] } }

/-- A walk that request 7 reads, with a lock request or without. -/
def walk (lock stale : Bool) : Walk := { dom := 1#6, fpn := 0#14, stale := stale, waiters := [0#4], lock := lock, req := some 7 }

theorem witness_WalkCompletes : ∀ lock stale, ∃ x,
    live (walked (walk lock stale)) = true ∧ PulseTaken (walked (walk lock stale)) ∧
    HeadRead x .walk (walked (walk lock stale)) ∧
    walkAwaiting x.req.id (walked (walk lock stale)) = some (walk lock stale) ∧
    mapKey (walked (walk lock stale)) = some (key 2#256) ∧
    (∀ y ∈ (walked (walk lock stale)).front.slots, y.txn.tag ∈ (walk lock stale).waiters →
      y.region = some .key ∧ y.keyLost = false) ∧
    (∃ tag ∈ (walk lock stale).waiters, findSlot (walked (walk lock stale)) tag =
      some (slot (txn 0#4 .read 0x80000000 1#6 .app) .key .walkWaiter)) ∧
    domState (walked (walk lock stale)) 1#6 = .opened := by
  unfold HeadRead
  intro lock stale
  refine ⟨burst false .walk (mapBackLine 15#4 (mapLineOf 1#6 0#14)), rfl, ready_taken, ?_⟩
  cases lock <;> cases stale <;> decide

/-- The class check has each outcome, and a page or a lock can be refused its place by 16 locked entries. -/
theorem witness_WalkCompletes_classes :
    classOutcome .opened (txn 0#4 .read 0x80000000 1#6 .app) page0 = .served ∧
    classOutcome .closed (txn 0#4 .write 0x80000000 1#6 .app) page0 = .refused .closed .noReason ∧
    classOutcome .opened (txn 0#4 .read 0x80000000 1#6 .app) { page0 with kernelOnly := true } = .refused .denied .privilege ∧
    classOutcome .opened (txn 0#4 .write 0x80000000 1#6 .app) { page0 with cls := .dataRo } = .refused .denied .classRule ∧
    classOutcome .opened (txn 0#4 .read 0x80000000 1#6 .app) { page0 with cls := .key } = .refused .denied .lifecycle ∧
    classOutcome .closed (txn 0#4 .write 0x80000000 1#6 .app) { page0 with cls := .key } = .handed ∧
    ∃ t, AllLocked t := by
  refine ⟨by decide, by decide, by decide, by decide, by decide, by decide,
    { ready.xlat with fixed := Vector.replicate 16 { held := { valid := true, fields := page0 }, lock := true, used := true } },
    fun i => ?_⟩
  simp

/-- The words a walk may find: a usable DATA page, a usable KEY page, and the all-zero descriptor, which is none. -/
theorem witness_WalkCompletes_pages :
    (∃ p, (Desc.ofBits 0x1#64).page 1#6 0#14 0#8 = some p ∧ p.cls ≠ .key) ∧
    (∃ p, (Desc.ofBits 0x45#64).page 1#6 0#14 0#8 = some p ∧ p.cls = .key) ∧
    (Desc.ofBits 0x0#64).page 1#6 0#14 0#8 = none :=
  ⟨⟨_, rfl, by decide⟩, ⟨_, rfl, by decide⟩, by decide⟩

/-- READY with a released transaction, these walks, and what else the buffers hold. -/
def released (t : Txn) (walks : List Walk) (s : State) : State :=
  withSlots [slot t .key .walkWaiting]
    { s with xlat := { s.xlat with walks := walks, waiting := [{ tag := t.tag, released := true }] } }

/-- A read of domain 1's page 0. -/
def keyRead : Txn := txn 0#4 .read 0x80000000 1#6 .app

/-- A repeat that the re-check refuses; one that hits; one that misses, with no walk, four others, and an unstale and a
stale walk of its pair. -/
theorem witness_WaitingLookupRepeats :
    (∀ t s walks, t = txn 0#4 .read 0x80000000 2#6 .app ∧ s = ready ∧ walks = [] ∨
      t = keyRead ∧ (s = ready ∧ (walks = [] ∨
          walks = [walkOf 1#14 false, walkOf 2#14 false, walkOf 3#14 false, walkOf 4#14 false] ∨
          walks = [walkOf 0#14 false] ∨ walks = [walkOf 0#14 true]) ∨ s = inFixed ∧ walks = []) →
      PulseTaken (released t walks s) ∧ live (released t walks s) = true ∧ SlotLaw (released t walks s) ∧
      (released t walks s).xlat.waiting.find? (fun v => v.released) = some { tag := t.tag, released := true } ∧
      findSlot (released t walks s) t.tag = some (slot t .key .walkWaiting) ∧
      admits (domState (released t walks s) t.dom) t.dir = (t.dom == 1#6)) ∧
    (∃ t', Finds 1#6 0#14 (released keyRead [] inFixed).xlat page0 t') ∧ Misses 1#6 0#14 (released keyRead [] ready).xlat ∧
    keyFpn keyRead.line = 0#14 := by
  unfold SlotLaw Misses
  refine ⟨?_, ⟨_, .inl ⟨15, by decide, by decide, rfl⟩⟩, by decide, by decide⟩
  rintro t s walks (⟨rfl, rfl, rfl⟩ | ⟨rfl, ⟨rfl, rfl | rfl | rfl | rfl⟩ | ⟨rfl, rfl⟩⟩) <;>
    exact ⟨ready_taken, by decide⟩

/-- READY with the one fill of a domain's page 0 at a line, and an update that waits for its room. -/
def filling (d : DomId) (next : Nat) (order : List MapLine) : State :=
  { ready with maps := { ready.maps with
    updates := [newUpdate 0#17 (.kernel 1#4) .waiting]
    fills := [{ dom := d, fpn := 0#14, bpn := 0#14, line := 0#17, next := next }], roomOrder := order } }

theorem witness_MapWorkGoesOn :
    (∀ s, s = withUpdate (newUpdate 0#17 (.kernel 1#4) .waiting) ready ∨ s = ready → ∃ x,
      live (withSlots [slot (txn 0#4 .read 0x84000000 0#6 .kernel) .map .mapReadHeld] s) = true ∧
      SlotLaw (withSlots [slot (txn 0#4 .read 0x84000000 0#6 .kernel) .map .mapReadHeld] s) ∧
      findSlot (withSlots [slot (txn 0#4 .read 0x84000000 0#6 .kernel) .map .mapReadHeld] s) 0#4 = some x ∧
      x.phase = .mapReadHeld ∧ x.region = some .map ∧ mapWindowLine x.txn.line = 0#17) ∧
    (findUpdate (filling 1#6 0 []) 0#17 = some (newUpdate 0#17 (.kernel 1#4) .waiting) ∧
      (∃ f ∈ (filling 1#6 0 []).maps.fills, f.line = 0#17) ∧
      ∀ f ∈ (withUpdate (newUpdate 0#17 (.kernel 1#4) .waiting) ready).maps.fills, f.line ≠ 0#17) ∧
    (∀ n order, (n = 0 ∨ n = 62 ∨ n = 63) ∧ (order = [] ∨ order = [0#17]) →
      live (filling 1#6 n order) = true ∧ RoomLaw (filling 1#6 n order) ∧
      lineKey (filling 1#6 n order) 1#6 = some (key 3#256) ∧ mayEnter .fill (filling 1#6 n order) = true) ∧
    live (filling 3#6 0 []) = true ∧ RoomLaw (filling 3#6 0 []) ∧ lineKey (filling 3#6 0 []) 3#6 = none := by
  unfold SlotLaw
  refine ⟨?_, ⟨rfl, by decide, by decide⟩, ?_, rfl, fun k hk => (by cases hk), by decide⟩
  · rintro s (rfl | rfl) <;>
      exact ⟨slot (txn 0#4 .read 0x84000000 0#6 .kernel) .map .mapReadHeld, by decide⟩
  · rintro n order ⟨hn, rfl | rfl⟩
    · exact ⟨rfl, fun k hk => (by cases hk), rfl, rfl⟩
    · exact ⟨rfl, fun k hk => ⟨_, .head _, (List.mem_singleton.mp hk).symm⟩, rfl, rfl⟩

/-- READY with these update requests, Update List entries and fills. -/
def mapping (requests : List UpdateRequest) (updates : List UpdateEntry) (fills : List Fill) : State :=
  { ready with maps := { ready.maps with requests := requests, updates := updates, fills := fills } }

/-- Seven entries, on map lines 1 to 7. -/
def seven : List UpdateEntry := (List.finRange 7).map fun i => newUpdate (BitVec.ofNat 17 (i.val + 1)) (.kernel 0#4) .waiting

/-- Eight entries, on map lines 1 to 8. -/
def eight : List UpdateEntry := seven ++ [newUpdate 8#17 (.kernel 0#4) .waiting]

/-- A part update of domain 1's page 0 to FIRST. -/
def firstPart : PartUpdate := OneChange 1#6 0#14 0#14 [.empty] .first (some .a)

/-- A request behind one whose line is held, and behind one that waits for a free entry: with six entries listed it is taken,
with seven the one free entry is kept for the older. -/
theorem witness_UpdateIsTaken_behind :
    (∀ us, us = seven ∨ us = seven.tail → ∀ k : MapLine, k = 7#17 ∨ k = 9#17 →
      (mapping [.kernel 0#4 k, .kernel 1#4 0#17] us []).maps.requests =
        [UpdateRequest.kernel 0#4 k] ++ UpdateRequest.kernel 1#4 0#17 :: [] ∧
      (∀ v ∈ us, v.line ≠ 0#17) ∧ ((∀ v ∈ us, v.line ≠ k) ↔ k = 9#17)) ∧
    [9#17].Nodup ∧ seven.length + [9#17].length = 8 ∧ seven.tail.length + [9#17].length = 7 ∧
    (takePicked (.kernel 1#4) (mapping [.kernel 0#4 7#17, .kernel 1#4 0#17] seven [])).maps.updates.length = 8 ∧
    (takePicked (.kernel 1#4) (mapping [.kernel 0#4 9#17, .kernel 1#4 0#17] seven [])).maps.updates.length = 7 ∧
    (takePicked (.kernel 1#4) (mapping [.kernel 0#4 9#17, .kernel 1#4 0#17] seven.tail [])).maps.updates.length = 7 := by
  refine ⟨?_, by decide⟩
  rintro us (rfl | rfl) k (rfl | rfl) <;> decide

/-- A kernel merge and, behind it, a part update for one free line, seven entries listed: the part update has a turn only
where both waited together as the line freed, as its entry's leaving notes (R34). -/
theorem witness_UpdateIsTaken_turn :
    let reqs : List UpdateRequest := [.kernel 0#4 firstPart.line, .part firstPart]
    let s := mapping reqs seven []
    let both : State := { s with maps := { s.maps with together := reqs } }
    s.maps.requests = [UpdateRequest.kernel 0#4 firstPart.line] ++ .part firstPart :: [] ∧ live s = true ∧
    (∀ v ∈ s.maps.updates, v.line ≠ firstPart.line) ∧ UpdateRequest.part firstPart ∉ s.maps.together ∧
    (takePicked .part s).maps.updates = seven ∧ UpdateRequest.part firstPart ∈ both.maps.together ∧
    (takePicked .part both).maps.updates.length = 8 ∧ (takePicked .part both).maps.together = [] ∧
    (leaveUpdates firstPart.line s).maps.together = reqs ∧ s.maps.left firstPart.line = both.maps := by
  decide

theorem witness_UpdateIsTaken :
    (∀ us, us = seven ∨ us = eight ∨ us = [newUpdate 0#17 (.kernel 1#4) .waiting] →
      live (mapping [.kernel 0#4 0#17] us []) = true ∧
      (mapping [.kernel 0#4 0#17] us []).maps.requests = [UpdateRequest.kernel 0#4 0#17] ∧
      mayEnter (.updateRead 0#17) (mapping [.kernel 0#4 0#17] us []) = true) ∧
    seven.length < 8 ∧ (∀ v ∈ seven, v.line ≠ 0#17) ∧ 8 ≤ eight.length ∧
    (∃ f ∈ (mapping [.kernel 0#4 0#17] seven [{ dom := 0#6, fpn := 0#14, bpn := 0#14, line := 0#17, next := 0 }]).maps.fills,
      f.line = 0#17) ∧
    (mapping [.part firstPart] seven []).maps.requests = [UpdateRequest.part firstPart] ∧
    (∀ v ∈ (mapping [.part firstPart] seven []).maps.updates, v.line ≠ firstPart.line) ∧
    mayEnter (.updateRead firstPart.line) (mapping [.part firstPart] seven []) = true := by
  refine ⟨?_, by decide⟩
  rintro us (rfl | rfl | rfl) <;> decide

/-- An update of map line 2048, domain 1's first, whose line read has come. -/
def updating (o : UpdateOrigin) : State :=
  withBurst (burst false .update (mapBackLine 15#4 2048#17))
    (withSlots [slot (txn 0#4 .write 0x84020000 0#6 .kernel) .map .updateListed]
      (withUpdate (newUpdate 2048#17 o (.reading (some 7))) ready))

/-- Both origins of an update meet the hypotheses; a part update of a page whose stored descriptor is not usable fails, and
one of a usable EMPTY KEY descriptor passes. -/
theorem witness_UpdateLineArrives :
    (∀ o, o = .kernel 0#4 ∨ o = .part firstPart → ∃ x u, live (updating o) = true ∧ HeadRead x .update (updating o) ∧
      updateAwaiting x.req.id (updating o) = some u ∧ u.origin = o ∧ mapKey (updating o) = some (key 2#256) ∧
      SlotLaw (updating o) ∧ RoomLaw (updating o) ∧ (updating o).entry.work = none ∧ ∃ y, findSlot (updating o) 0#4 = some y) ∧
    (∃ stored, ∀ c ∈ firstPart.changes, passes stored 0#8 c = true) ∧
    (∃ stored, ∃ c ∈ firstPart.changes, passes stored 0#8 c = false) ∧
    ∀ c ∈ firstPart.changes, (Desc.ofBits 0x5#64).changed c = Desc.ofBits 0x15#64 := by
  unfold HeadRead SlotLaw
  refine ⟨fun o ho => ⟨burst false .update (mapBackLine 15#4 2048#17), newUpdate 2048#17 o (.reading (some 7)), ?_⟩,
    ⟨descsLine (Vector.replicate 8 0x5#64), by decide⟩, ⟨zeroLine, by decide⟩, by decide⟩
  have hy : findSlot (updating o) 0#4 = some (slot (txn 0#4 .write 0x84020000 0#6 .kernel) .map .updateListed) := by
    rcases ho with rfl | rfl <;> decide
  rcases ho with rfl | rfl <;> exact ⟨rfl, by decide, rfl, rfl, rfl, by decide, fun k hk => (by cases hk), rfl, _, hy⟩

/-- A first component write whose domain an ERASE at epoch 255 has left without its seed, after its part update: no line
enters, the write is refused CLOSED and its new entry goes; a listed page with a line in its set stays listed. -/
theorem test_first_component_without_key :
    let s (e : EntryRec) : State := withSlots [slot (txn 0#4 .write 0x80000040 1#6 .app) .key .entryTaken] { ready with
      seeds := { ready.seeds with domains := ready.seeds.domains.set 1 none }
      entry := { ready.entry with list := [e], work := some (.component { compAt (.writing zeroLine) with combines := false }) } }
    let new : EntryRec := { entry .first .a 0#64 with firstSet := 0#64 }
    lineKey (s new) 1#6 = none ∧ (enterEntry (s new)).entry.list = [] ∧
    (findSlot (enterEntry (s new)) 0#4).map Slot.phase = some (.responding .closed zeroLine) ∧
    (enterEntry (s new)).back.queue = [] ∧
    (enterEntry (s { new with firstSet := 1#64 })).entry.list = [{ new with firstSet := 1#64 }] := by
  decide

/-- An update of map line 2048 that holds its room, of either origin, held or not, with the pages it retires. -/
def writing (o : UpdateOrigin) (held : Bool) (removes : List (DomId × Fpn)) : UpdateEntry :=
  { newUpdate 2048#17 o (.writing true) with held := held, removes := removes }

/-- The operations that the end of an update may meet: none, one at each stage that awaits it, and one it cuts short. -/
def meets : List (Option EntryWork) :=
  [none, some (.component (compAt .firstUpdate)), some (.component (compAt .combineUpdate)),
    some (.component (compAt (.writing zeroLine))), some (.finalising none 1#6 0#14 .half []),
    some (.finalising none 1#6 0#14 .live []), some (.finalising none 1#6 0#14 .retire []),
    some (.finalising none 1#6 0#14 (.filling [0#6] []) []), some (.abandoning [])]

/-- An update of either origin, with each of these operations in progress. -/
def updated (o : UpdateOrigin) (held : Bool) (removes : List (DomId × Fpn)) (w : Option EntryWork) : State :=
  withSlots [slot (txn 1#4 .write 0x84020000 0#6 .kernel) .map .updateListed,
      slot (txn 0#4 .write 0x80000040 1#6 .app) .key .entryTaken]
    (withUpdate (writing o held removes)
      { ceremony with entry := { ceremony.entry with list := [entry .second .b 0#64], work := w } })

theorem witness_UpdateLineIsWritten : ∀ o held removes, o = .kernel 1#4 ∨ o = .part firstPart →
    removes = [] ∨ removes = [(1#6, 0#14)] → ∀ w ∈ meets,
    live (updated o held removes w) = true ∧ SlotLaw (updated o held removes w) ∧
    findUpdate (updated o held removes w) 2048#17 = some (writing o held removes) ∧
    (writing o held removes).state = .writing true ∧ mapKey (updated o held removes w) = some (key 2#256) ∧
    mayEnter (.updateWrite 2048#17) (updated o held removes w) = true ∧
    (∀ c y, (updated o held removes w).entry.work = some (.component c) →
      findSlot (updated o held removes w) c.tag = some y → y.region = some .key) ∧
    findSlot (updated o held removes w) 1#4 = some (slot (txn 1#4 .write 0x84020000 0#6 .kernel) .map .updateListed) := by
  unfold SlotLaw
  intro o held removes ho hr w hw
  refine ⟨rfl, ⟨?_, ?_⟩, ?_, rfl, rfl, rfl, ?_, ?_⟩
  · show 2 ≤ 16; decide
  · show [1#4, 0#4].Nodup; decide
  · simp [findUpdate, updated, withUpdate, withSlots, writing, newUpdate]
  · intro c y hc hy
    have hs : ∀ w' ∈ meets, ∀ c, w' = some (.component c) → c.tag = 0#4 := by
      simp only [meets, List.mem_cons, List.not_mem_nil, or_false]
      rintro w' (rfl | rfl | rfl | rfl | rfl | rfl | rfl | rfl | rfl) c h <;> cases h <;> rfl
    have : findSlot (updated o held removes w) 0#4 = some (slot (txn 0#4 .write 0x80000040 1#6 .app) .key .entryTaken) := rfl
    rw [hs w hw c hc, this] at hy
    cases hy
    rfl
  · rfl

/-- A merge that retires the page in LIVE zero fill and the next page of the finalisation: both entries go, no update of the
second is offered, and the finalisation ends with WINDOW-CLOSED (R109, R110, R114). -/
theorem test_merge_retires_two_pages :
    let two : List EntryRec := [entry .second .b 2#64, { entry .second .b 0#64 with fpn := 1#14 }]
    let u := kernelRetires [(1#6, 0#14), (1#6, 1#14)] { ceremony with entry := { ceremony.entry with
      list := two, work := some (.finalising (some .a) 1#6 0#14 (.filling [0#6] []) [(1#6, 1#14)]) } }
    u.entry.list = [] ∧ u.entry.work = none ∧ u.maps.requests = [] ∧ u.ev.flags &&& Flag.windowClosed.mark ≠ 0#11 := by
  decide

/-- R38's table for a KEY page in LIVE (0x45), whose whole word is written: RETIRED (0x55) is taken, with its fill and no
entry removed; EMPTY (0x5) is held; and a FIRST one (0x15) retired has its entry removed as well. -/
theorem test_kernel_merge_of_a_page_in_use :
    (formMerge 2048#17 (descsLine (Vector.replicate 8 0x45#64)) (descsLine (Vector.replicate 8 0x55#64)) 0xFF#64 0#8).2 =
      ([{ dom := 1#6, fpn := 0#14, bpn := 0#14, line := 2048#17, next := 0 }], false, []) ∧
    (formMerge 2048#17 (descsLine (Vector.replicate 8 0x45#64)) (descsLine (Vector.replicate 8 0x5#64)) 0xFF#64 0#8).2 =
      ([], true, []) ∧
    (formMerge 2048#17 (descsLine (Vector.replicate 8 0x15#64)) (descsLine (Vector.replicate 8 0x55#64)) 0xFF#64 0#8).2 =
      ([{ dom := 1#6, fpn := 0#14, bpn := 0#14, line := 2048#17, next := 0 }], false, [(1#6, 0#14)]) := by
  decide

/-- A LIVE KEY page that the kernel proposes as EMPTY stays LIVE. -/
theorem witness_KernelKeepsEntry : ∃ p,
    (Desc.ofBits (lineDescs (formMerge 2048#17 (descsLine (Vector.replicate 8 0x45#64)) (descsLine (Vector.replicate 8 0x5#64))
      allMarks 0#8).1)[(0 : Fin 8)]).page 0#6 0#14 0#8 = some p ∧ p.cls = .key ∧ p.life = .live := by
  refine ⟨{ dom := 0#6, fpn := 0#14, bpn := 0#14, cls := .key, kernelOnly := false, life := .live }, ?_⟩
  decide

theorem witness_AddressArithmetic :
    (∀ p : DramPlace, p = { rank := 1, bank := 7, row := 16383#14, column := 1016 } → p.column % 8 = 0 ∧ p.column < 1024) ∧
    (63#25 : BackLine).toNat * 64 / 4096 = (0#25 : BackLine).toNat * 64 / 4096 := by
  refine ⟨?_, by decide⟩
  rintro p rfl
  decide

/-! ## Witnesses: run pulses, windows and key entry -/

theorem witness_RunPulseCounts :
    PulseTaken ceremony ∧ awaitsPulse .runPulse = true ∧ live ceremony = true ∧ ceremony.doms[(1 : Fin 64)].state = .opened ∧ ceremony.doms[(1 : Fin 64)].lease.toNat ≤ 1 ∧
    ceremony.doms[(2 : Fin 64)].state ≠ .opened ∧ (ceremony.entry.window .a).state = .opened ∧
    (ceremony.entry.window .a).remaining.toNat ≤ 1 ∧ (ceremony.entry.window .b).state ≠ .opened ∧
    (∃ r : DomRec, r.state = .opened ∧ 2 ≤ r.lease.toNat) ∧ ∃ w : Window, w.state = .opened ∧ 2 ≤ w.remaining.toNat :=
  ⟨ceremony_taken, rfl, by decide, by decide, by decide, by decide, by decide, by decide, by decide,
    ⟨{ state := .opened, epoch := 0#8, lease := 2#16, staged := none, ending := false }, by decide⟩,
    ⟨{ state := .opened, remaining := 2#16, ending := false }, by decide⟩⟩

/-- READY with domain 1's lease ending, with this staged extension. -/
def ending (staged : Option (BitVec 16)) : State :=
  { ready with doms := ready.doms.set 1 { state := .opened, epoch := 0#8, lease := 1#16, staged := staged, ending := true } }

theorem witness_LeaseEnds : ∀ staged, staged = none ∨ staged = some 1#16 →
    live (ending staged) = true ∧ (ending staged).doms[domIx 1#6].state = .opened ∧
    (ending staged).doms[domIx 1#6].ending = true ∧ (ending staged).doms[domIx 1#6].staged = staged := by
  rintro staged (rfl | rfl) <;> decide

theorem witness_WindowEvents :
    PulseTaken ceremony ∧ ((ceremony.entry.switch .b).on = false ∧ live ceremony = true ∧ (ceremony.entry.window .b).state = .shut ∧
      ceremony.cab.cabinet = .ready ∧ ceremony.entry.domain ≠ none) ∧
    ((ceremony.entry.switch .a).on = false ∧ (ceremony.entry.window .a).state ≠ .shut) ∧
    (PulseTaken up ∧ (up.entry.switch .a).on = false ∧ up.cab.cabinet ≠ .ready) ∧
    (∃ s : State, PulseTaken s ∧ (s.entry.switch .a).on = true ∧ (s.entry.window .a).state = .opened) ∧
    ∃ s : State, live s = true ∧ (s.entry.window .a).state = .opened ∧ (s.entry.window .a).ending = true := by
  refine ⟨ceremony_taken, by decide, by decide, ⟨up_taken, by decide⟩,
    ⟨{ ceremony with entry := { ceremony.entry with switchA := { on := true, count := 0 } } }, ceremony_taken, by decide⟩,
    { ceremony with entry := { ceremony.entry with windowA := { state := .opened, remaining := 1#16, ending := true } } },
    by decide⟩

/-- A component write to line 1 of domain 1's page 0. -/
def component : Txn := txn 0#4 .write 0x80000040 1#6 .app

/-- A ceremony with a component write waiting, and these entries. -/
def writingComponent (t : Txn) (life : Lifecycle) (list : List EntryRec) : State :=
  withSlots [slot t .key .entryWait]
    { ceremony with entry := { ceremony.entry with list := list, waiting := [.component 0#4 0#14 life] } }

/-- Thirty-two entries, of pages 1 to 32. -/
def thirtyTwo : List EntryRec :=
  (List.finRange 32).map fun i => { entry .half .a 0#64 with fpn := BitVec.ofNat 14 (i.val + 1) }

/-- One refusal of the judgement's steps: what it is of, and its reason. -/
def refusals : List (Txn × Lifecycle × List EntryRec × Reason) :=
  [({ component with dom := 2#6 }, .empty, [], .domain), (masked 1#64 component, .empty, [], .partialWrite),
    (component, .half, [], .lifecycle), (component, .empty, thirtyTwo, .entryFull),
    (component, .first, [entry .first .b 0#64], .custodian),
    (component, .half, [{ entry .half .b 0#64 with firstSet := 0#64 }], .line),
    (component, .second, [entry .second .b 2#64], .line)]

theorem witness_ComponentRefused : ∀ q ∈ refusals, ∃ y, PulseTaken (writingComponent q.1 q.2.1 q.2.2.1) ∧
    live (writingComponent q.1 q.2.1 q.2.2.1) = true ∧ SlotLaw (writingComponent q.1 q.2.1 q.2.2.1) ∧
    (writingComponent q.1 q.2.1 q.2.2.1).entry.work = none ∧
    (writingComponent q.1 q.2.1 q.2.2.1).entry.waiting = [.component 0#4 0#14 q.2.1] ∧
    findSlot (writingComponent q.1 q.2.1 q.2.2.1) 0#4 = some y ∧ y.region = some .key ∧
    ComponentRefusal (writingComponent q.1 q.2.1 q.2.2.1).entry y.txn q.2.1 q.2.2.2 := by
  unfold SlotLaw ComponentRefusal SoleOpen
  intro q hq
  refine ⟨slot q.1 .key .entryWait, ceremony_taken, rfl, ?_, rfl, rfl, ?_, rfl, ?_⟩
  · revert q; decide
  · revert q; decide
  · simp only [refusals, List.mem_cons, List.not_mem_nil, or_false] at hq
    have hd : (writingComponent component .empty []).entry.domain = some component.dom := by decide
    rcases hq with rfl | rfl | rfl | rfl | rfl | rfl | rfl
    · exact .inl (by decide)
    all_goals refine .inr ⟨hd, .inr (.inr ⟨.a, by decide, ?_⟩)⟩
    · exact .inl (by decide)
    · exact .inr ⟨by decide, .inl (by decide)⟩
    · exact .inr ⟨by decide, .inr (by decide)⟩
    · exact .inr ⟨by decide, by decide, rfl⟩
    · exact .inr ⟨by decide, .inr (by decide)⟩
    · exact .inr ⟨by decide, .inr (by decide)⟩

/-- The judgement asks for no key (R103): the first component write of a domain that an ERASE has left without its seed is
carried out, its entry listed and its update offered (R105). -/
theorem test_component_of_erased_domain :
    let s := writingComponent component .empty []
    let u := takeComponent 0#4 0#14 .empty { s with seeds := { s.seeds with domains := s.seeds.domains.set 1 none } }
    u.entry.list.length = 1 ∧ u.maps.requests = [.part (OneChange 1#6 0#14 0#14 [.empty] .first (some .a))] ∧
    (findSlot u 0#4).map Slot.phase = some .entryTaken := by
  decide

/-- No window OPEN, and both, are refused NOWINDOW and AMBIGUOUS. -/
theorem witness_ComponentRefused_windows :
    (∃ u : EntryUnit, u.domain = some component.dom ∧ u.windowA.state ≠ .opened ∧ u.windowB.state ≠ .opened) ∧
    ∃ u : EntryUnit, u.domain = some component.dom ∧ u.windowA.state = .opened ∧ u.windowB.state = .opened :=
  ⟨⟨{ ceremony.entry with windowA := .reset }, by decide⟩, ⟨{ ceremony.entry with windowB := ceremony.entry.windowA }, by decide⟩⟩

theorem witness_ComponentBegins : ∀ list ∈ [[], [entry .half .b 0#64], [entry .first .a 0#64], [entry .second .b 0#64]],
    PulseTaken (writingComponent component .empty list) ∧ live (writingComponent component .empty list) = true ∧
    SlotLaw (writingComponent component .empty list) ∧ (writingComponent component .empty list).entry.work = none ∧
    (writingComponent component .empty list).entry.waiting = [.component 0#4 0#14 .empty] ∧
    findSlot (writingComponent component .empty list) 0#4 = some (slot component .key .entryWait) ∧
    component.enables = allMarks ∧ (writingComponent component .empty list).entry.domain = some component.dom ∧
    SoleOpen .a (writingComponent component .empty list).entry ∧ keyFpn component.line = 0#14 ∧
    keyPageIndex component.line = 1#6 ∧ findEntry (writingComponent component .empty list) 1#6 0#14 = list.head? ∧
    (entry .half .b 0#64).firstSet.getLsbD 1 = true ∧ (entry .second .b 0#64).combinedSet.getLsbD 1 = false := by
  unfold SoleOpen SlotLaw
  intro list hl
  refine ⟨ceremony_taken, rfl, ?_⟩
  revert list
  decide

/-- The combining read has come, its domain's seed kept or destroyed. -/
theorem witness_CombiningBurst : ∀ d : DomId, d = 1#6 ∨ d = 3#6 →
    ∃ s x c y, live s = true ∧ SlotLaw s ∧ HeadRead x .entry s ∧ s.entry.work = some (.component c) ∧
      c.stage = .reading (some x.req.id) ∧ findSlot s c.tag = some y ∧ y.region = some .key ∧
      (lineKey s c.dom = none ↔ d = 3#6) := by
  unfold HeadRead SlotLaw
  intro d hd
  refine ⟨withBurst (burst false .entry (keyBackLine 15#4 0#14 1#6)) (withSlots [slot component .key .entryTaken]
      (working (.component { compAt (.reading (some 7)) with dom := d }))),
    burst false .entry (keyBackLine 15#4 0#14 1#6), { compAt (.reading (some 7)) with dom := d },
    slot component .key .entryTaken, ?_⟩
  rcases hd with rfl | rfl <;> decide

/-- READY with an entry operation waiting and these entries. -/
def finalising (op : EntryOp) (list : List EntryRec) : State :=
  { ceremony with entry := { ceremony.entry with list := list, waiting := [op] } }

/-- For custodian A, and deferred: no entry, and a first entry in FIRST, complete with all lines, complete with lines left,
and incomplete; HALF for the deferred one. -/
theorem witness_FinalisationBegins : ∀ op x, op = .finalise .a ∧ x = some .a ∨ op = .deferred ∧ x = none →
    (∀ list, PulseTaken (finalising op list) ∧ live (finalising op list) = true ∧ (finalising op list).entry.work = none ∧
      (finalising op list).entry.waiting = [op]) ∧
    (∀ e ∈ [entry .first .a 0#64, entry .second .b 2#64, entry .second .b 0#64,
      { entry .second .b allMarks with firstSet := allMarks }], FinAffects x e) ∧
    FinAffects none (entry .half .b 0#64) ∧ ¬FinAffects (some .a) (entry .half .b 0#64) := by
  rintro op x (⟨rfl, rfl⟩ | ⟨rfl, rfl⟩)
  · exact ⟨fun _ => ⟨ceremony_taken, rfl, rfl, rfl⟩, by simp [FinAffects, entry], trivial, id⟩
  · exact ⟨fun _ => ⟨ceremony_taken, rfl, rfl, rfl⟩, by simp [FinAffects], trivial, id⟩

theorem witness_LiveFillAndAbandonment :
    (∀ left out, (left = [] ∧ out = []) ∨ (left = [0#6] ∧ out = []) ∨ (left = [] ∧ out = [7]) →
      ∃ s e, live s = true ∧ s.entry.work = some (.finalising (some .a) 1#6 0#14 (.filling left out) []) ∧
        findEntry s 1#6 0#14 = some e) ∧
    ∀ list, list = [] ∨ list = [entry .half .a 0#64] →
      PulseTaken (finalising .abandon list) ∧ live (finalising .abandon list) = true ∧ (finalising .abandon list).entry.work = none ∧
      (finalising .abandon list).entry.waiting = [.abandon] ∧ (finalising .abandon list).entry.list = list := by
  constructor
  · intro left out _
    exact ⟨{ ceremony with entry := { ceremony.entry with
      list := [entry .second .b 2#64], work := some (.finalising (some .a) 1#6 0#14 (.filling left out) []) } },
      entry .second .b 2#64, rfl, rfl, rfl⟩
  · rintro list (rfl | rfl) <;> exact ⟨ceremony_taken, by decide⟩

/-! ## Witnesses: the Back Controller -/

/-- A waiting read of a back line. -/
def waitingRead (id : Nat) (l : BackLine) : BackReq := newRequest id false l .front 0#3 zeroLine 0#64

/-- READY at back clock 100 with these requests and service list. -/
def queued (q : List BackReq) (service : List Nat) : State :=
  { ready with back := { ready.back with queue := q, service := service, clock := 100, nextId := 8 } }

/-- Three reads of one row in service, and a fourth that waits. -/
def threeServed : State :=
  queued [{ waitingRead 0 0#25 with inService := true }, { waitingRead 1 1#25 with inService := true },
    { waitingRead 2 2#25 with inService := true }, waitingRead 3 3#25] [0, 1, 2]

/-- A selection with three in service already and one request eligible, and none with four in service or an empty queue. -/
theorem witness_SelectionChooses :
    (live threeServed = true ∧ threeServed.back.startUp = none ∧ threeServed.back.timely threeServed.back.clock = true ∧
      threeServed.back.service.length = 3 ∧ QueueLaw threeServed ∧
      ∃ q ∈ threeServed.back.queue, MayBeSelected q threeServed.back) ∧
    (∃ s, live s = true ∧ s.back.startUp = none ∧ s.back.timely s.back.clock = true ∧ QueueLaw s ∧ s.back.service.length = 4) ∧
    ∃ s, live s = true ∧ s.back.startUp = none ∧ s.back.timely s.back.clock = true ∧ QueueLaw s ∧
      ∀ q ∈ s.back.queue, ¬MayBeSelected q s.back := by
  unfold QueueLaw
  refine ⟨⟨by decide, by decide, by decide, by decide, by decide, waitingRead 3 3#25, by decide,
      ⟨rfl, ⟨[_, _, _], [], rfl, rfl, by decide⟩, rfl, by decide⟩, fun x hx hu => ?_⟩,
    ⟨queued (threeServed.back.queue.map fun q => { q with inService := true }) [0, 1, 2, 3], by decide⟩,
    queued [] [], by decide, by decide, by decide, by decide, fun q hq => by cases hq⟩
  have urgent_none : ∀ x ∈ threeServed.back.queue, x.urgent = false := by decide
  rw [urgent_none x hx] at hu
  cases hu

/-- A request in service for an IDLE bank is activated at the first clock that R121 allows: tRP after its precharge. -/
theorem witness_ActivationAndPrechargeRule :
    ∃ s, issued 103 s = some (.activate 0 0 0#14) ∧ issued 102 s = none ∧ (s.back.bank 0 0).lastPre = some 97 := by
  refine ⟨{ queued [{ waitingRead 0 0#25 with inService := true }] [0] with back :=
    (queued [{ waitingRead 0 0#25 with inService := true }] [0]).back.onBank 0 0 fun k => { k with lastPre := some 97 } },
    by decide⟩

/-- The bank holds another row; it is precharged at the first clock that R123 allows: tRAS after its activation. -/
theorem witness_ActivationAndPrechargeRule_precharge : ∃ s, issued 108 s = some (.precharge 0 0) ∧ issued 107 s = none := by
  refine ⟨{ queued [{ waitingRead 0 0#25 with inService := true }] [0] with back :=
    (queued [{ waitingRead 0 0#25 with inService := true }] [0]).back.onBank 0 0 fun k =>
      { k with row := some 9#14, lastAct := some 90 } }, by decide⟩

/-- The bank holds the row; the read goes at the first clock that R122 allows: tRCD after the activation. -/
theorem witness_ColumnRule : ∃ s, issued 106 s = some (.column 0) ∧ issued 105 s = none := by
  refine ⟨{ queued [{ waitingRead 0 0#25 with inService := true }] [0] with back :=
    (queued [{ waitingRead 0 0#25 with inService := true }] [0]).back.onBank 0 0 fun k =>
      { k with row := some 0#14, lastAct := some 100 } }, by decide⟩

/-- Each place of R125 takes a command in some state: the first four in the states above and below, the idle close of a bank
that is ACTIVE with no request for its row, tIDLE clocks after its last column command. -/
theorem witness_CommandPathOrder : ∃ s : State, live s = true ∧ s.back.startUp = none ∧ (s.back.advance 132).timely 132 = true ∧
    issued 132 s = some (.precharge 0 3) ∧ issued 131 s = none ∧ PlaceTakes 132 s.back (.precharge 0 3) 5 := by
  refine ⟨{ queued [] [] with back := (queued [] []).back.onBank 0 3 fun k =>
    { k with row := some 0#14, lastAct := some 50, lastCol := some 100 } }, by decide, by decide, by decide, by decide, by decide,
    0, 3, rfl, ?_, ?_⟩
  · unfold IdleCloses PreMeets
    decide
  · unfold IdleCloses PreMeets
    decide

/-- A rank's record in a state. -/
def ranked (st : RefreshState) (due accrued : Nat) (q : List BackReq) : State :=
  { queued q [] with back := (queued q []).back.onRank 0 fun k =>
    { k with state := st, due := due, lastRefresh := some 90, accrued := accrued } }

/-- An idle rank with one refresh due, a FORCED one with a request, and refreshes that end with 7 and with 8 due. -/
theorem witness_RefreshRule :
    issued 200 (ranked .normal 1 0 []) = some (.refresh 0) ∧
    issued 200 (ranked .forced 8 0 [waitingRead 0 0#25]) = some (.refresh 0) ∧
    ∀ due ∈ [7, 8], live (ranked .refreshing due 0 []) = true ∧
      (ranked .refreshing due 0 []).back.ranks[(0 : Fin 2)].state = .refreshing ∧
      (ranked .refreshing due 0 []).back.ranks[(0 : Fin 2)].due = due ∧
      (ranked .refreshing due 0 []).back.ranks[(0 : Fin 2)].lastRefresh = some 90 := by decide

/-- Below 7 due, at 7 with a request waiting, and at 8; a return of the timer already made, or still to come. -/
theorem witness_RefreshAccrues : ∀ accrued ∈ [0, 1],
    (live (ranked .normal 6 accrued []) = true ∧ (ranked .normal 6 accrued []).back.startUp = none ∧
      (ranked .normal 6 accrued []).back.ranks[(0 : Fin 2)].accrued = accrued ∧
      (ranked .normal 6 accrued []).back.ranks[(0 : Fin 2)].due < 7) ∧
    ((ranked .forced 8 accrued []).back.ranks[(0 : Fin 2)].due = 8 ∧
      (ranked .forced 8 accrued []).back.ranks[(0 : Fin 2)].state ≠ .normal) ∧
    (ranked .normal 7 accrued [waitingRead 0 0#25]).back.ranks[(0 : Fin 2)].due = 7 ∧
      (ranked .normal 7 accrued [waitingRead 0 0#25]).back.ranks[(0 : Fin 2)].state = .normal := by decide

/-- READY with a bank that is to precharge itself, from clock 5. -/
def closingBank : State := { ready with back := ready.back.onBank 0 0 fun k => { k with closing := some 5, lastAct := some 2 } }

theorem witness_OwnPrecharges :
    (live closingBank = true ∧ (closingBank.back.bank 0 0).closing = some 5 ∧ AutoAt 0 0 5 20 closingBank.back) ∧
    (∃ u, live State.reset = true ∧ State.reset.back.startUp = some u ∧ u.powerUp = true) ∧
    ∃ s : State, live s = true ∧ s.back.startUp = some { powerUp := false, start := 0 } := by
  refine ⟨⟨by decide, by decide, fun n => ?_⟩, ⟨{ powerUp := true, start := 0 }, by decide⟩,
    { ready with back := { ready.back with startUp := some { powerUp := false, start := 0 } } }, by decide⟩
  have h1 : (closingBank.back.bank 0 0).lastAct = some 2 := by decide
  have h2 : (closingBank.back.bank 0 0).lastRead = none := by decide
  have h3 : closingBank.back.writeEnd 0 0 = none := by decide
  have h4 : closingBank.back.timing.tRAS = 18 := by decide
  simp only [h1, h2, h3, h4, Option.some.injEq, reduceCtorEq, false_implies, implies_true, and_true]
  constructor
  · intro h
    exact ⟨by omega, fun a ha => by omega⟩
  · intro h
    exact h.2 2 rfl

/-- A read of a region whose burst has come. -/
def arriving (t : Txn) (r : Region) (keyLost : Bool) : State :=
  withBurst (burst false .front 0#25) (withSlots [{ slot t r (.readOut 0#25 7) with keyLost := keyLost }] ready)

/-- The front reads of each region, and the reads of partial writes. -/
def fronts : List (Txn × Region) :=
  [(read0 0#4, .plain), (txn 0#4 .read 0x88000000 0#6 .kernel, .raw), (txn 0#4 .read 0x80000000 1#6 .app, .key),
    (txn 0#4 .read 0x84000000 0#6 .kernel, .map), (masked 1#64 (txn 0#4 .write 0x88000000 0#6 .kernel), .raw),
    (masked 1#64 (txn 0#4 .write 0x80000000 1#6 .app), .key)]

theorem witness_ReadBurstArrives :
    (∀ q ∈ fronts, ∀ keyLost, ∃ x y, PulseTaken (arriving q.1 q.2 keyLost) ∧ live (arriving q.1 q.2 keyLost) = true ∧
      SlotLaw (arriving q.1 q.2 keyLost) ∧ HeadRead x .front (arriving q.1 q.2 keyLost) ∧
      slotAwaiting x.req.id (arriving q.1 q.2 keyLost) = some y ∧ y.region = some q.2 ∧ y.keyLost = keyLost ∧
      lineKey (arriving q.1 q.2 keyLost) 1#6 = some (key 3#256) ∧ mapKey (arriving q.1 q.2 keyLost) = some (key 2#256)) ∧
    ∃ x, live (withBurst (burst false .front 0#25) ready) = true ∧
      HeadRead x .front (withBurst (burst false .front 0#25) ready) ∧
      slotAwaiting x.req.id (withBurst (burst false .front 0#25) ready) = none := by
  unfold HeadRead SlotLaw
  refine ⟨fun q hq keyLost => ⟨burst false .front 0#25, { slot q.1 q.2 (.readOut 0#25 7) with keyLost := keyLost },
    ready_taken, rfl, ?_⟩, burst false .front 0#25, by decide⟩
  revert q
  cases keyLost <;> decide

/-- A background write, and the last awaited LIVE zero fill. -/
theorem witness_WriteCompletes :
    (∃ s x, live s = true ∧ s.mem.wf ∧ s.back.bursts.head? = some x ∧ x.req.write = true ∧
      x.req.origin = .background s.cab.bg.run ∧ s.cab.bg.op ≠ .idle) ∧
    ∀ stage, stage = .filling [] [7] ∨ stage = .half →
      ∃ s x, live s = true ∧ s.mem.wf ∧ s.back.bursts.head? = some x ∧ x.req.write = true ∧ x.req.origin = .fill ∧
        s.entry.work = some (.finalising none 1#6 0#14 stage []) := by
  refine ⟨⟨withBurst (burst true (.background 0) 0#25)
      { up with cab := { up.cab with cabinet := .zeroed, sub := .scrubbing, bg := { up.cab.bg with op := .scrub } } },
      burst true (.background 0) 0#25, by decide⟩, fun stage h => ⟨withBurst (burst true .fill 0#25)
      { ready with entry := { ready.entry with work := some (.finalising none 1#6 0#14 stage []) } },
    burst true .fill 0#25, ?_⟩⟩
  rcases h with rfl | rfl <;> decide

/-- A background operation at a line with a count of completions. -/
def background (op : BgOp) (next completed : Nat) : State :=
  { ready with cab := { ready.cab with bg := { op := op, next := next, completed := completed, run := 0 } } }

theorem witness_BackgroundLines :
    (∀ n, n = 0 ∨ n = 1179647 → live (background .scrub n 0) = true ∧ (background .scrub n 0).cab.bg.op = .scrub ∧
      (background .scrub n 0).cab.bg.next < 1179648 ∧
      (backLineAt (pabBase 15#4 + n * 64)).toNat * 64 = pabBase (background .scrub n 0).seeds.pab + n * 64 ∧
      mayEnter .background (background .scrub n 0) = true) ∧
    (∀ n, n = 0 ∨ n = 131071 → (background .mapClear n 0).cab.bg.next < 131072 ∧
      mapKey (background .mapClear n 0) = some (key 2#256) ∧
      (backLineAt (pabBase 15#4 + 0x04000000 + n * 64)).toNat * 64 =
        pabBase (background .mapClear n 0).seeds.pab + 0x04000000 + n * 64) ∧
    (∃ s : State, live s = true ∧ s.cab.bg.op = .scrub ∧ s.back.queue.length = 13 ∧ mayEnter .background s = false) ∧
    1179648 ≤ (background .scrub 1179648 0).cab.bg.next ∧ 131072 ≤ (background .mapClear 131072 0).cab.bg.next ∧
    ready.cab.bg.op = .idle ∧
    live (background .scrub 0 1179648) = true ∧ (background .scrub 0 1179648).cab.bg.completed = 1179648 ∧
    (background .scrub 0 1179647).cab.bg.completed < 1179648 ∧ (background .mapClear 0 131072).cab.bg.completed = 131072 ∧
    (background .mapClear 0 131071).cab.bg.completed < 131072 := by
  refine ⟨?_, ?_, ⟨{ background .scrub 0 0 with back := { ready.back with
    queue := (List.range 13).map fun i => waitingRead i 0#25, nextId := 13 } }, by decide⟩, by decide⟩
  · rintro n (rfl | rfl) <;> decide
  · rintro n (rfl | rfl) <;> decide

/-! ## Witnesses: the Tamper Monitor and power -/

/-- A channel's settings in a state of READY, all other channels disabled, in SWEEP. -/
def sweeping (c : Channel) (i : Fin 8) (last : Option (Fin 8)) : State :=
  { ready with mon := { ready.mon with
    channels := (Vector.replicate 8 { Channel.reset with enable := false }).set i.val c i.isLt, lastConv := last } }

/-- A channel with limits 100 and 150, count 2 of 3. -/
def limits : Channel := { Channel.reset with low := 100#8, high := 150#8, count := 2 }

theorem witness_ConversionRule :
    (∃ m : Monitor, m.mode = .focus 5 ∧ m.nextChannel = some 5) ∧
    ((sweeping { limits with enable := false } 3 none).mon.mode = .sweep ∧
      (sweeping { limits with enable := false } 3 none).mon.nextChannel = none) ∧
    (∀ last, last = none ∨ last = some 3 ∨ last = some 7 → (sweeping limits 3 last).mon.mode = .sweep ∧
      (sweeping limits 3 last).mon.channels[(3 : Fin 8)].enable = true ∧
      (sweeping limits 3 last).mon.nextChannel = some 3 ∧ (sweeping limits 3 last).mon.history.length ≤ 4 ∧
      (sweeping limits 3 last).cab.power = .mains) ∧
    limits.low ≤ (100#8 : Byte) ∧ (100#8 : Byte) ≤ limits.high ∧ (99#8 : Byte) < limits.low ∧ limits.high < (151#8 : Byte) ∧
    limits.count + 1 = limits.depth := by
  refine ⟨⟨{ ready.mon with mode := .focus 5 }, rfl, rfl⟩, by decide, ?_, by decide⟩
  rintro last (rfl | rfl | rfl) <;> decide

/-- The five detections, each in a state where it has something to detect. -/
def detecting (s : State) : State :=
  { s with mon := { s.mon with
    channels := s.mon.channels.set 7 { s.mon.channels[7] with detected := some true }
    meshes := s.mon.meshes.set 1 { s.mon.meshes[1] with detected := true } } }

theorem detecting_taken : PulseTaken (detecting ready) := ready_taken

theorem witness_AlarmDestroysKeys :
    (∀ q ∈ [(Instr.channelDetection 7, Cause.chHigh 7), (.meshDetection 1, .mesh 1), (.lidRegistered true, .lid),
      (.panelRegistered true, .panel), (.zeroise (frame []), .command)], Detects q.1 q.2 (detecting ready)) ∧
    PulseTaken (detecting ready) ∧ (detecting ready).cab.cabinet ≠ .blank ∧ (detecting ready).cab.cabinet ≠ .zeroed ∧
    (detecting ready).mon.record.valid = false := by
  refine ⟨?_, detecting_taken, by decide, by decide, by decide⟩
  simp only [List.forall_mem_cons]
  refine ⟨⟨true, ?_⟩, ⟨?_, rfl⟩, ⟨rfl, ?_⟩, ⟨rfl, ?_⟩, ⟨?_, rfl⟩, fun _ h => by cases h⟩ <;> decide

/-- An alarm with a valid record, whose further count is at its maximum, and one on battery. -/
theorem witness_AlarmDestroysKeys_record :
    (∃ s : State, PulseTaken s ∧ Detects (.meshDetection 1) (.mesh 1) s ∧ s.cab.cabinet = .restore ∧ s.mon.record.valid = true ∧
      s.mon.record.further = 255#8) ∧
    ∃ s : State, PulseTaken s ∧ Detects (.meshDetection 1) (.mesh 1) s ∧ s.cab.cabinet = .clearing ∧ live s = false := by
  refine ⟨⟨{ detecting ready with
      cab := { ready.cab with cabinet := .restore }
      mon := { (detecting ready).mon with
        record := { valid := true, first := some .lid, time := 0#32, causes := 0x40000#21, further := 255#8 } } },
      ready_taken, ⟨by decide, rfl⟩, by decide⟩,
    { detecting ready with cab := { ready.cab with cabinet := .clearing, power := .battery } }, ?_, ⟨by decide, rfl⟩, by decide⟩
  exact fun h => absurd h (by decide)

theorem witness_AlarmReachesMainDomain : ∃ s, PulseTaken s ∧ Detects (.meshDetection 1) (.mesh 1) s ∧ s.cab.cabinet ≠ .blank ∧
    s.cab.cabinet ≠ .zeroed ∧ live s = true ∧ SlotLaw s ∧ s.link.slot = .waiting ∧
    (∃ x, findSlot s 0#4 = some x ∧ (regionOf x.txn.line).isWindow = true ∧ x.responds = false) ∧
    (∃ x, findSlot s 1#4 = some x ∧ (regionOf x.txn.line).isWindow = false) ∧
    (∃ x, findSlot s 2#4 = some x ∧ x.responds = true) ∧ s.mon.record.valid = false := by
  unfold SlotLaw
  refine ⟨withSlots [slot (txn 0#4 .read 0x80000000 1#6 .app) .key .walkWaiter,
      slot (txn 1#4 .read 0 1#6 .app) .plain (.readOut 0#25 7),
      slot (txn 2#4 .read 0x80001000 1#6 .app) .key (.responding .done zeroLine)]
    { detecting ready with link := { ready.link with slot := .waiting } }, ready_taken, ⟨by decide, rfl⟩, by decide, by decide, by decide,
    by decide, rfl, ⟨_, rfl, by decide⟩, ⟨_, rfl, by decide⟩, ⟨_, rfl, by decide⟩, by decide⟩

theorem witness_DetectionElsewhere :
    (PulseTaken (detecting up) ∧ Detects (.meshDetection 1) (.mesh 1) (detecting up) ∧ (detecting up).cab.cabinet = .blank) ∧
    (∃ s, PulseTaken s ∧ Detects (.meshDetection 1) (.mesh 1) s ∧ s.cab.cabinet = .zeroed ∧ live s = true ∧
      s.mon.record.valid = false) ∧
    (∃ s : State, s.mon.lid.on = true) ∧ ready.mon.channels[(0 : Fin 8)].detected = none ∧
    ready.mon.meshes[(0 : Fin 2)].detected = false :=
  ⟨⟨up_taken, ⟨by decide, rfl⟩, by decide⟩,
    ⟨{ detecting up with cab := { up.cab with cabinet := .zeroed } }, up_taken, ⟨by decide, rfl⟩, by decide⟩,
    ⟨{ ready with mon := { ready.mon with lid := { on := true, count := 0 } } }, by decide⟩, by decide, by decide⟩

/-- An enabled, REFERENCED mesh with period 64, tolerance 4 and count 2 of 3, at an interval. -/
def sensing (interval : Nat) : Mesh := { Mesh.reset with interval := interval, referenced := true, count := 2 }

theorem witness_MeshesAndSeconds :
    (sensing 0).enable = true ∧ (sensing 0).referenced = true ∧ Mesh.reset.referenced = false ∧
    (∀ n, n = 60 ∨ n = 68 → (sensing n).period ≤ (sensing n).interval + (sensing n).tol ∧
      (sensing n).interval ≤ (sensing n).period + (sensing n).tol) ∧
    (sensing 59).interval + (sensing 59).tol < (sensing 59).period ∧
    (sensing 69).period + (sensing 69).tol < (sensing 69).interval ∧ (sensing 59).count + 1 = (sensing 59).depth ∧
    (sensing 0).period % 2 = 0 ∧ (sensing 0).phase < (sensing 0).period ∧
    (∃ m : Mesh, m.enable = false) ∧ ∃ s : State, s.mon.meshes[(1 : Fin 2)] = sensing 59 := by
  refine ⟨by decide, by decide, by decide, ?_, by decide, by decide, by decide, by decide, by decide,
    ⟨{ Mesh.reset with enable := false }, rfl⟩,
    { ready with mon := { ready.mon with meshes := ready.mon.meshes.set 1 (sensing 59) } }, by decide⟩
  rintro n (rfl | rfl) <;> decide

/-- On mains with a write whose burst has begun and one whose burst has not. -/
theorem witness_MainDomainStops : ∃ s : State, s.cab.power = .mains ∧ s.cab.rst = false ∧ s.mem.wf ∧
    (∃ x ∈ s.back.bursts, x.req.write = true ∧ x.start ≤ s.back.clock) ∧
    (∃ x ∈ s.back.bursts, x.req.write = true ∧ s.back.clock < x.start) ∧
    (∃ before x after, s.back.bursts = before ++ x :: after ∧ Covers s.back x 63 63 ∧ ∀ y ∈ after, ∀ j, ¬Covers s.back y j 63) ∧
    (∃ d : Fin 64, s.doms[d].state = .opened) ∧ ∃ d : Fin 64, s.doms[d].state ≠ .opened := by
  unfold Covers
  refine ⟨{ withBurst (burst true .fill 0#25) ready with back := { (withBurst (burst true .fill 0#25) ready).back with
    bursts := [burst true .fill 0#25, { burst true .fill 1#25 with start := 20, finish := 24 }] } }, by decide, by decide,
    by decide, by decide, by decide, ⟨[], _, _, rfl, by decide, by decide⟩, ⟨1, by decide⟩, ⟨2, by decide⟩⟩

theorem witness_MainDomainReturns :
    ∀ (power : Power) (rst : Bool), ∃ s : State, s.cab.power = power ∧ s.cab.rst = rst :=
  fun power rst => ⟨{ ready with cab := { ready.cab with power := power, rst := rst } }, rfl, rfl⟩

/-! ## Witnesses: the supervisor link -/

theorem witness_LinkFrames :
    (WellFormed (.erase (frame [])) = true ∧ linkRow (.erase (frame [])) = some (frame [], 1) ∧ live ready = true ∧
      (awaitsPulse (.erase (frame [])) = true → PulseTaken ready) ∧ (frame []).addr = linkAddress ready ∧
      (frame []).args.length ≠ 1) ∧
    (∃ f : Frame, WellFormed (.erase f) = true ∧ f.addr ≠ linkAddress ready) ∧
    WellFormed (.unknown 0x00#8 (frame [])) = true ∧ WellFormed (.unknown 0xFF#8 (frame [1#8])) = true := by
  exact ⟨⟨by decide, by decide, by decide, fun _ => ready_taken, by decide, by decide⟩,
    ⟨{ addr := 0x4D#7, args := [1#8] }, by decide⟩, by decide, by decide⟩

theorem witness_AnswerRead :
    (live ready = true ∧ (0x4C#7 : BitVec 7) = linkAddress ready ∧ ready.link.slot = .empty) ∧
    (∃ s : State, live s = true ∧ s.link.slot = .ready .accepted [5#8]) ∧ ∃ s : State, s.link.slot = .waiting :=
  ⟨by decide, ⟨{ ready with link := { ready.link with slot := .ready .accepted [5#8] } }, by decide⟩,
    { ready with link := { ready.link with slot := .waiting } }, rfl⟩

/-- READY with one Entry List entry, a refusal record and a full history. -/
def reporting : State :=
  { ceremony with
    entry := { ceremony.entry with list := [entry .half .b 0#64] }
    mon := { ceremony.mon with history := [(0, 1#8), (1, 2#8), (2, 3#8), (3, 255#8)] }
    ev := { ceremony.ev with record := some {
      kind := .denied, reason := .entryFull, region := .raw, dom := 63#6, priv := .kernel, dir := .write
      line := BitVec.ofNat 26 (0x8C7FFFC0 / 64), tag := 15#4 } } }

theorem reporting_taken : PulseTaken reporting := ceremony_taken

theorem witness_Readouts :
    PulseTaken reporting ∧ SentArgs (frame []) [] reporting ∧ (∀ b, SentArgs (frame [b]) [b] reporting) ∧
    (64#8 : Byte).toNat > 63 ∧ (63#6 : DomId).toNat = (63#8 : Byte).toNat ∧ 31 < (32#8 : Byte).toNat ∧
    reporting.entry.list.length ≤ (31#8 : Byte).toNat ∧ (31#8 : Byte).toNat ≤ 31 ∧
    reporting.entry.list[(0#8 : Byte).toNat]? = some (entry .half .b 0#64) ∧ ready.ev.record = none ∧
    (∃ r, reporting.ev.record = some r) ∧ reporting.mon.history.length = 4 := by
  unfold SentArgs
  exact ⟨reporting_taken, by decide, fun b => ⟨by decide, rfl, rfl⟩, by decide, by decide, by decide, by decide, by decide, by decide,
    by decide, ⟨_, rfl⟩, by decide⟩

theorem witness_EventClears :
    PulseTaken ready ∧ SentArgs (frame [0#8, 0#8]) [0#8, 0#8] ready ∧ SentArgs (frame [255#8, 255#8]) [255#8, 255#8] ready ∧
    SentArgs (frame [1#8, 0#8, 0#8, 0#8, 0#8, 0#8, 0#8, 128#8]) [1#8, 0#8, 0#8, 0#8, 0#8, 0#8, 0#8, 128#8] ready ∧
    SentArgs (frame []) [] ready := by
  unfold SentArgs
  exact ⟨ready_taken, by decide⟩

/-- The cabinet in a state, with both switches ON, no alarm condition, and a valid record or none. -/
def cabinet (c : CabState) (sub : ZeroSub) (valid : Bool) : State :=
  { up with
    cab := { up.cab with cabinet := c, sub := sub }
    entry := { up.entry with switchA := { on := true, count := 0 }, switchB := { on := true, count := 0 } }
    mon := { up.mon with
      channels := Vector.replicate 8 { Channel.reset with last := some 128#8 }
      record := { up.mon.record with valid := valid, first := if valid then some .lid else none } } }

theorem witness_TamperCommands :
    SentArgs (frame []) [] (cabinet .zeroed .quiet true) ∧ (cabinet .zeroed .quiet true).mon.record.valid = true ∧
    (cabinet .zeroed .quiet true).mon.record.first = some .lid ∧ (cabinet .zeroed .quiet true).cab.cabinet = .zeroed ∧
    SentArgs (frame []) [] (cabinet .ready .quiet false) ∧ (cabinet .ready .quiet false).mon.record.valid = false ∧
    (cabinet .ready .quiet false).cab.cabinet ≠ .zeroed := by
  unfold SentArgs
  decide

/-- The cabinet states, sub-states and records that the judgements tell apart. -/
def cabinets : List (CabState × ZeroSub × Bool) :=
  [(.blank, .quiet, false), (.zeroed, .quiet, false), (.zeroed, .quiet, true), (.zeroed, .scrubbing, false), (.restore, .quiet, false)]

theorem witness_CabinetCommands :
    (∀ q ∈ cabinets, SentArgs (frame []) [] (cabinet q.1 q.2.1 q.2.2) ∧
      (cabinet q.1 q.2.1 q.2.2).cab.cabinet = q.1 ∧ (cabinet q.1 q.2.1 q.2.2).cab.sub = q.2.1 ∧
      (cabinet q.1 q.2.1 q.2.2).mon.record.valid = q.2.2 ∧ (cabinet q.1 q.2.1 q.2.2).entry.switchA.on = true ∧
      (cabinet q.1 q.2.1 q.2.2).entry.switchB.on = true) ∧
    (∀ c sub valid, ¬AlarmCondition (cabinet c sub valid).mon) ∧ AlarmCondition ready.mon ∧ up.entry.switchA.on = false := by
  unfold SentArgs
  refine ⟨by decide, ?_, ?_, by decide⟩
  · rintro c sub valid (⟨i, -, h⟩ | ⟨i, -, h⟩ | h)
    · have hi : ∀ j : Fin 8, (cabinet c sub valid).mon.channels[j] = { Channel.reset with last := some 128#8 } := by
        intro j
        show (Vector.replicate 8 _)[j] = _
        simp
      rw [hi] at h
      have := h 128#8 rfl
      revert this
      decide
    · have hi : ∀ j : Fin 2, (cabinet c sub valid).mon.meshes[j] = Mesh.reset := by
        intro j
        show (Vector.replicate 2 _)[j] = _
        simp
      rw [hi] at h
      exact h rfl
    · exact absurd (show false = true from h) (by decide)
  · exact .inl ⟨0, by decide, fun code h => absurd (show none = some code from h) (by simp)⟩

/-- A command of one domain, and one of a domain and a count, low byte first. -/
theorem witness_RunCommands :
    PulseTaken ready ∧ Sent (frame [1#8]) 1 ready ∧ Sent (frame [0#8]) 1 ready ∧ Sent (frame [64#8]) 1 ready ∧
    Sent (frame [1#8, 1#8, 0#8]) 3 ready ∧ Sent (frame [1#8, 0#8, 0#8]) 3 ready ∧
    (frame [1#8, 1#8, 0#8]).args.getD 0 0#8 = 1#8 ∧
    (1#16 : BitVec 16) = (frame [1#8, 1#8, 0#8]).args.getD 2 0#8 ++ (frame [1#8, 1#8, 0#8]).args.getD 1 0#8 ∧
    (63#8 : Byte).toNat = (63#6 : DomId).toNat ∧ (63#6 : DomId) ≠ 0#6 ∧ ready.doms[domIx 63#6].state = .vacant ∧
    ready.doms[domIx 2#6].state = .closed ∧ ready.doms[domIx 1#6].state = .opened ∧ ready.cab.cabinet = .ready ∧
    up.cab.cabinet ≠ .ready ∧ up.cab.cabinet ≠ .restore := by
  unfold Sent
  exact ⟨ready_taken, by decide⟩

/-- Domain 1 at an epoch. -/
def atEpoch (e : Epoch) : State :=
  { ready with doms := ready.doms.set 1 { state := .opened, epoch := e, lease := 1#16, staged := none, ending := false } }

theorem witness_EraseEndsDomain :
    (∀ e ∈ [0#8, 254#8, 255#8], PulseTaken (atEpoch e) ∧ SentArgs (frame [1#8]) [1#8] (atEpoch e) ∧
      (1#8 : Byte).toNat = (1#6 : DomId).toNat ∧ (atEpoch e).cab.cabinet = .ready ∧
      (atEpoch e).doms[domIx 1#6].state = .opened ∧ (atEpoch e).doms[domIx 1#6].epoch = e ∧
      ∀ x ∈ (atEpoch e).entry.list, x.dom ≠ 1#6) ∧
    PulseTaken reporting ∧ SentArgs (frame [1#8]) [1#8] reporting ∧ reporting.cab.cabinet = .ready ∧
    reporting.doms[domIx 1#6].state = .opened ∧ ∃ x ∈ reporting.entry.list, x.dom = 1#6 := by
  unfold SentArgs
  refine ⟨fun e he => ⟨fun _ => ⟨?_, by rintro (_ | _) h <;> cases h⟩, ?_⟩, reporting_taken, by decide⟩ <;> (revert e; decide)

theorem witness_EntryCommands :
    PulseTaken ready ∧ PulseTaken ceremony ∧ (∀ b, b = 64#8 ∨ b = 254#8 → SentArgs (frame [b]) [b] ready ∧ 64 ≤ b.toNat ∧ b.toNat ≤ 254) ∧
    SentArgs (frame [255#8]) [255#8] ready ∧ SentArgs (frame [63#8]) [63#8] ready ∧ domState ready 63#6 = .vacant ∧
    SentArgs (frame [2#8]) [2#8] ready ∧ domState ready 2#6 = .closed ∧ ready.entry.domain ≠ some 2#6 ∧
    ready.entry.list = [] ∧ ready.entry.windowA.state ≠ .opened ∧ ready.entry.windowB.state ≠ .opened ∧
    ceremony.entry.domain = some 1#6 ∧ ceremony.entry.windowA.state = .opened ∧ ceremony.entry.domain ≠ some 2#6 ∧
    SentArgs (frame []) [] ready ∧ SentArgs (frame []) [] up ∧ up.cab.cabinet ≠ .ready := by
  unfold SentArgs
  refine ⟨ready_taken, ceremony_taken, ?_, by decide⟩
  rintro b (rfl | rfl) <;> decide

/-- A locked entry of domain 2. -/
def locked : FixedEntry := { held := { valid := true, fields := { page0 with dom := 2#6 } }, lock := true, used := true }

/-- READY with all 16 Fixed Buffer entries locked. -/
def allLocked16 : State := { ready with xlat := { ready.xlat with fixed := Vector.replicate 16 locked } }

/-- A walk of the pair, three walks of others, four of others. -/
def lockWalks : List (List Walk) :=
  [[walkOf 0#14 false], [walkOf 1#14 false, walkOf 2#14 false, walkOf 3#14 false],
    [walkOf 1#14 false, walkOf 2#14 false, walkOf 3#14 false, walkOf 4#14 false]]

theorem witness_LockCommand :
    (∀ s, s = ready ∨ s = inFixed ∨ s = inSet true ∨ s = allLocked16 ∨ (∃ w ∈ lockWalks, s = lookingUp w 0 false) →
      PulseTaken s ∧ Sent (frame [1#8, 0#8, 0#8]) 3 s ∧
      (∀ v ∈ s.xlat.walks, v.lock = false) ∧ s.cab.cabinet = .ready ∧ domState s 1#6 = .opened) ∧
    (frame [1#8, 0#8, 0#8]).args.getD 0 0#8 = 1#8 ∧ (0#16 : BitVec 16).toNat = (0#14 : Fpn).toNat ∧
    63 < (64#8 : Byte).toNat ∧ 16383 < (16384#16 : BitVec 16).toNat ∧
    inFixed.xlat.fixedHit 1#6 0#14 = some 15 ∧ (inSet true).xlat.fixedHit 1#6 0#14 = none ∧
    (inSet true).xlat.setHit 1#6 0#14 = some page0 ∧ ¬AllLocked (inSet true).xlat ∧
    allLocked16.xlat.fixedHit 1#6 0#14 = none ∧ AllLocked allLocked16.xlat ∧
    ready.xlat.fixedHit 1#6 0#14 = none ∧ ready.xlat.setHit 1#6 0#14 = none ∧
    (∃ s : State, ∃ v ∈ s.xlat.walks, v.lock = true) ∧ domState ready 2#6 ≠ .opened := by
  unfold Sent
  refine ⟨?_, by decide, by decide, by decide, by decide, by decide, by decide, by decide, ?_, by decide, ?_, by decide, by decide,
    ⟨{ ready with xlat := { ready.xlat with walks := [walk true false] } }, by decide⟩, by decide⟩
  · rintro s (rfl | rfl | rfl | rfl | ⟨w, hw, rfl⟩)
    case inr.inr.inr.inr =>
      refine ⟨ready_taken, ?_⟩
      revert w
      decide
    all_goals exact ⟨ready_taken, by decide⟩
  · exact fun h => absurd (h 0).1 (by decide)
  · exact fun i => by simp [allLocked16, locked]

theorem witness_UnlockAndDemaps :
    PulseTaken inFixed ∧ Sent (frame [1#8, 0#8, 0#8]) 3 inFixed ∧ inFixed.xlat.fixedHit 1#6 0#14 = some 15 ∧
    PulseTaken ready ∧ Sent (frame [1#8, 0#8, 0#8]) 3 ready ∧ ready.xlat.fixedHit 1#6 0#14 = none ∧
    SentArgs (frame [63#8]) [63#8] inFixed ∧ SentArgs (frame [64#8]) [64#8] inFixed ∧
    (63#8 : Byte).toNat = (63#6 : DomId).toNat ∧ SentArgs (frame []) [] inFixed := by
  unfold Sent SentArgs
  exact ⟨ready_taken, by decide, by decide, ready_taken, by decide⟩

/-- A CONFIGURE frame. -/
def item (k i : Nat) (v0 v1 v2 v3 v4 v5 : Byte) : Frame :=
  frame (BitVec.ofNat 8 k :: BitVec.ofNat 8 i :: [v0, v1, v2, v3, v4, v5])

/-- Each item with the largest index of its own and the one above, and the two items beside the ten. -/
def items : List (Nat × Nat) :=
  [(0, 0), (11, 0), (255, 255)] ++ [(1, 0), (3, 0), (4, 0), (5, 0), (9, 0), (10, 0), (7, 1), (6, 7), (8, 7), (2, 10)].flatMap fun q =>
    [q, (q.1, q.2 + 1)]

/-- BLANK at a back clock, with a bank whose read of clock 90 under an activation of clock 80 asked for an automatic
precharge. -/
def closingAt (clock : Nat) : State :=
  { up with back := { up.back.onBank 0 0 fun k => { k with
    row := some 0#14, lastAct := some 80, lastRead := some 90, lastCol := some 90, closing := some 90 } with clock := clock } }

/-- Such a precharge has its clock at 98, tRAS after the activation: at back clock 97 it is still to come, at 98 it has come;
and another bank has none. -/
theorem witness_ConfigureItems_timing : ∀ clock : Nat, clock = 97 ∨ clock = 98 →
    SentItem (item 2 2 40#8 0#8 0#8 0#8 0#8 0#8) 2 2 [40#8, 0#8, 0#8, 0#8, 0#8, 0#8] (closingAt clock) ∧
    Settable (closingAt clock) ∧ ((closingAt clock).back.bank 0 0).closing = some 90 ∧
    AutoAt 0 0 90 98 (closingAt clock).back ∧ (98 ≤ (closingAt clock).back.clock ↔ clock = 98) ∧
    ((closingAt clock).back.bank 1 7).closing = none := by
  have auto : ∀ clock, AutoAt 0 0 90 98 (closingAt clock).back := by
    intro clock n
    show 98 ≤ n ↔ 90 ≤ n ∧ (∀ a, some 80 = some a → a + 18 ≤ n) ∧ (∀ a, some 90 = some a → a + 4 ≤ n) ∧
      ∀ a, (none : Option Nat) = some a → a + 6 ≤ n
    simp only [Option.some.injEq, forall_eq', reduceCtorEq, false_implies, implies_true, and_true]
    omega
  unfold SentItem Settable
  rintro clock (rfl | rfl) <;> exact ⟨by decide, by decide, by decide, auto _, by decide, by decide⟩

/-- Every item's frame reaches the part, in BLANK and in READY. -/
theorem witness_ConfigureItems :
    (∀ q ∈ items,
      SentItem (item q.1 q.2 0#8 0x78#8 0#8 0#8 0#8 0#8) q.1 q.2 [0#8, 0x78#8, 0#8, 0#8, 0#8, 0#8] up ∧
      SentItem (item q.1 q.2 1#8 0x78#8 255#8 255#8 255#8 255#8) q.1 q.2 [1#8, 0x78#8, 255#8, 255#8, 255#8, 255#8] ready) ∧
    Settable up ∧ ¬Settable ready ∧ up.cab.cabinet = .blank ∧ ready.cab.cabinet ≠ .blank ∧
    (0x7800 : Nat) = (0#8 : Byte).toNat + 256 * (0x78#8 : Byte).toNat ∧ 0x7800 * 65536 = pabBase 15#4 ∧
    (0x7801 : Nat) % 2048 ≠ 0 ∧ 30720 < 0x8000 ∧ 1 < (2#8 : Byte).toNat := by
  unfold SentItem Settable
  refine ⟨?_, by decide⟩
  simp only [items, List.flatMap_cons, List.flatMap_nil, List.cons_append, List.nil_append, List.forall_mem_cons]
  refine ⟨by decide, by decide, by decide, ?_⟩
  refine ⟨by decide, by decide, by decide, by decide, by decide, by decide, by decide, by decide, by decide, by decide, ?_⟩
  refine ⟨by decide, by decide, by decide, by decide, by decide, by decide, by decide, by decide, by decide, by decide,
    fun _ h => by cases h⟩

/-! ## Witnesses: the laws that every step keeps -/

/-- READY with a component write and a run pulse waiting, and a byte of memory written. -/
def lawful : State :=
  { writingComponent component .empty [] with pending := [.componentWrite, .runPulse], mem := { era := 0, cells := [(5, 1#8)] } }

/-- The state after its first command. -/
def lawfulNext : State := nextComponent { lawful with pending := [.runPulse] }

theorem witness_MemoryLawKept : lawful.mem.wf ∧ StepsTo lawful lawfulNext := ⟨by decide, rfl⟩

theorem witness_KeyLawsKept : CabinetLaw lawful ∧ DomainLaw lawful ∧ StepsTo lawful lawfulNext := by
  unfold CabinetLaw DomainLaw
  exact ⟨by decide, by decide, rfl⟩

theorem witness_ListLawsKept : SlotLaw lawful ∧ QueueLaw lawful ∧ EntryLaw lawful ∧ UpdateLaw lawful ∧ FillLaw lawful ∧
    WalkLaw lawful ∧ FollowingLaw lawful ∧ MapLaw lawful ∧ StepsTo lawful lawfulNext := by
  unfold SlotLaw QueueLaw UpdateLaw FillLaw WalkLaw MapLaw RoomLaw
  refine ⟨by decide, by decide, ⟨by decide, by decide, by decide, fun c h => ?_⟩, by decide, by decide, by decide,
    fun before x after h hx => ?_, ⟨fun k hk => (by cases hk), by decide, by decide, by decide, fun k hk => (by cases hk)⟩, rfl⟩
  · exact absurd (show none = some (EntryWork.component c) from h) (by simp)
  · have hm : x ∈ lawful.front.slots := h ▸ List.mem_append_right before (.head after)
    rw [List.mem_singleton.mp hm] at hx
    cases hx

/-- The buffers of a state hold nothing. -/
theorem witness_BufferLawKept : BufferLaw lawful ∧ StepsTo lawful lawfulNext := by
  have hb : buffered lawful.xlat = [] := by
    show buffered Translation.reset = []
    refine List.append_eq_nil_iff.mpr ⟨List.filterMap_eq_nil_iff.mpr fun x h => ?_, List.flatMap_eq_nil_iff.mpr fun x h => ?_⟩
    · rw [Translation.reset, Vector.toList_replicate] at h
      rw [List.eq_of_mem_replicate h]
      rfl
    · rw [Translation.reset, Vector.toList_replicate] at h
      rw [List.eq_of_mem_replicate h]
      rfl
  refine ⟨⟨by rw [hb]; exact .nil, by rw [hb]; exact fun p h => (by cases h), fun i p h => ?_⟩, rfl⟩
  have hs : lawful.xlat.setAt i = { way0 := .reset, way1 := .reset, recentOne := false } := by
    simp [Translation.setAt, lawful, writingComponent, withSlots, ceremony, ready, up, State.reset, Translation.reset]
  rw [hs] at h
  simp [Held.page, Held.reset] at h

/-! ## Witnesses: steps on an empty queue -/

/-- A state to which these arrive while no command waits. -/
def arrives (l : List Arrival) (s : State) : State := { s with arrivals := l }

/-- A mesh edge at which every input is ON, both meshes cross and nothing is measured. -/
def allOn : Inputs :=
  { custA := true, custB := true, lidOpen := true, panelPressed := true, analog := Vector.replicate 8 0, crossing0 := true
    crossing1 := false }

/-- READY, or on battery, at the mesh clock before a monitor clock, its counts about to run out. -/
def late (power : Power) : State :=
  { ready with
    cab := { ready.cab with power := power }
    run := { counter := 4095, compare := 4095 }
    entry := { ready.entry with switchA := { on := false, count := 63 }, switchB := { on := true, count := 63 } }
    mon := { ready.mon with meshClocks := 7, secondClocks := 4095, pace := 7 } }

theorem witness_EmptyQueueSteps :
    (∀ power l, (arrives l (late power)).pending = [] ∧ (arrives l (late power)).arrivals = l) ∧
    transferCommand 0x4C#7 [0x01#8] = some (.status (frame [])) ∧ live (late .mains) = true ∧ live (late .battery) = false ∧
    (late .mains).mon.meshClocks = 7 ∧ ready.mon.meshClocks ≠ 7 ∧ ready.run.counter ≠ ready.run.compare ∧
    (late .mains).run.counter = (late .mains).run.compare ∧ (∃ c, (late .mains).mon.nextChannel = some c) ∧
    Registers allOn.custA (late .mains).entry.switchA ∧ ¬Registers allOn.custB (late .mains).entry.switchB ∧
    (∃ u, Sampled allOn.custB (late .mains).entry.switchB u) := by
  unfold Registers
  exact ⟨fun _ _ => ⟨rfl, rfl⟩, by decide, by decide, by decide, by decide, by decide, by decide, by decide, ⟨0, by decide⟩,
    by decide, by decide, { on := true, count := 0 }, fun _ => rfl, fun h => absurd rfl h, fun h => absurd rfl h⟩

end Sys2Proof.Tests
end

/-! PROOFS. Address arithmetic: the Set Buffer index (R23), the DRAM division of back lines (R24), and the map lines of
pairs (R19, R20). -/

namespace Sys2Proof.Machine

/-! ## The Set Buffer index (R23) -/

theorem getLsbD_setIndex (d : DomId) (f : Fpn) (i : Fin 8) :
    (setIndex d f).getLsbD i.val = (f.getLsbD i.val ^^ (decide (2 ≤ i.val) && d.getLsbD (7 - i.val))) := by
  have hset : (setIndex d f).getLsbD i.val =
      (f.getLsbD i.val ^^ (d.reverse ++ 0#2 : BitVec 8).getLsbD i.val) := by
    simp [setIndex, i.isLt]
  rw [hset, BitVec.getLsbD_append]
  by_cases hi : i.val < 2
  · have hi' : ¬ 2 ≤ i.val := by omega
    simp [hi, hi']
  · have hi' : 2 ≤ i.val := by omega
    have hrev : 6 - 1 - (i.val - 2) = 7 - i.val := by omega
    have hlt : i.val - 2 < 6 := by omega
    rw [if_neg hi, BitVec.getLsbD_reverse, BitVec.getMsbD, hrev]
    simp [hi', hlt]

theorem setIndex_eq_iff_of_same_domain (d : DomId) (f f' : Fpn) :
    setIndex d f = setIndex d f' ↔ f.toNat % 256 = f'.toNat % 256 := by
  rw [setIndex, setIndex, BitVec.xor_left_inj, ← BitVec.toNat_inj, BitVec.toNat_setWidth, BitVec.toNat_setWidth]

/-- Reversing a domain number, and writing two zeros after it, goes through XOR. -/
theorem reverse_append_zeros_xor (d d' : DomId) :
    (d ^^^ d').reverse ++ 0#2 = (d.reverse ++ 0#2) ^^^ (d'.reverse ++ 0#2) := by
  have hrev : (d ^^^ d').reverse = d.reverse ^^^ d'.reverse := by
    ext i hi
    simp [BitVec.getElem_reverse]
  rw [hrev, BitVec.xor_append, BitVec.xor_self]

theorem xor_eq_xor_iff_xor_eq_xor {w : Nat} (a b x y : BitVec w) : a ^^^ x = b ^^^ y ↔ a ^^^ b = x ^^^ y := by
  have hswap : (a ^^^ x) ^^^ (b ^^^ y) = (a ^^^ b) ^^^ (x ^^^ y) := by ac_rfl
  rw [← BitVec.xor_eq_zero_iff, hswap, BitVec.xor_eq_zero_iff]

theorem setIndex_eq_iff (d d' : DomId) (f f' : Fpn) :
    setIndex d f = setIndex d' f' ↔ f.setWidth 8 ^^^ f'.setWidth 8 = (d ^^^ d').reverse ++ 0#2 := by
  rw [setIndex, setIndex, xor_eq_xor_iff_xor_eq_xor, reverse_append_zeros_xor]

/-! ## The DRAM division (R24) -/

theorem dramPlace_rank_val (b : BackLine) : (dramPlace b).rank.val = b.toNat * 64 / 0x10000 % 2 := rfl

theorem dramPlace_row_toNat (b : BackLine) : (dramPlace b).row.toNat = b.toNat * 64 / 0x20000 := by
  have hrow : b.toNat * 64 / 0x20000 < 2 ^ 14 := by omega
  exact (BitVec.toNat_ofNat _ 14).trans (Nat.mod_eq_of_lt hrow)

theorem dramPlace_column (b : BackLine) : (dramPlace b).column = b.toNat * 64 / 8 % 1024 := rfl

theorem dramPlace_column_mod_eight (b : BackLine) : (dramPlace b).column % 8 = 0 := by
  rw [dramPlace_column]
  omega

theorem mod_eight_xor_mod_eight_lt (m n : Nat) : m % 8 ^^^ n % 8 < 8 :=
  Nat.xor_lt_two_pow (n := 3) (Nat.mod_lt m (by decide)) (Nat.mod_lt n (by decide))

theorem dramPlace_bank_val (b : BackLine) :
    (dramPlace b).bank.val = b.toNat * 64 / 0x2000 % 8 ^^^ (dramPlace b).row.toNat % 8 := by
  rw [dramPlace_row_toNat]
  exact Nat.mod_eq_of_lt (mod_eight_xor_mod_eight_lt _ _)

theorem bank_bits_eq_bank_xor_row (b : BackLine) :
    b.toNat * 64 / 0x2000 % 8 = (dramPlace b).bank.val ^^^ (dramPlace b).row.toNat % 8 := by
  rw [dramPlace_bank_val, Nat.xor_assoc, Nat.xor_self, Nat.xor_zero]

/-- The back line at a DRAM place, for a column that begins a line: R24's division read the other way. -/
def lineOfPlace (p : DramPlace) : BackLine :=
  BitVec.ofNat 25
    (p.row.toNat * 2048 + p.rank.val * 1024 + (p.bank.val ^^^ p.row.toNat % 8) * 128 + p.column / 8)

theorem lineOfPlace_dramPlace (b : BackLine) : lineOfPlace (dramPlace b) = b := by
  refine BitVec.eq_of_toNat_eq ?_
  rw [lineOfPlace, ← bank_bits_eq_bank_xor_row, dramPlace_row_toNat, dramPlace_rank_val, dramPlace_column,
    BitVec.toNat_ofNat]
  omega

theorem bank_xor_row_lt (p : DramPlace) : p.bank.val ^^^ p.row.toNat % 8 < 8 :=
  Nat.mod_eq_of_lt p.bank.isLt ▸ mod_eight_xor_mod_eight_lt p.bank.val p.row.toNat

theorem lineOfPlace_toNat {p : DramPlace} (hc : p.column < 1024) :
    (lineOfPlace p).toNat =
      p.row.toNat * 2048 + p.rank.val * 1024 + (p.bank.val ^^^ p.row.toNat % 8) * 128 + p.column / 8 := by
  have hbits := bank_xor_row_lt p
  rw [lineOfPlace, BitVec.toNat_ofNat]
  omega

theorem DramPlace.eq_of_vals {p q : DramPlace} (hrank : p.rank.val = q.rank.val) (hbank : p.bank.val = q.bank.val)
    (hrow : p.row.toNat = q.row.toNat) (hcol : p.column = q.column) : p = q := by
  obtain ⟨rank, bank, row, column⟩ := p
  obtain ⟨rank', bank', row', column'⟩ := q
  obtain rfl := Fin.ext hrank
  obtain rfl := Fin.ext hbank
  obtain rfl := BitVec.eq_of_toNat_eq hrow
  obtain rfl := hcol
  rfl

theorem dramPlace_lineOfPlace {p : DramPlace} (hline : p.column % 8 = 0) (hc : p.column < 1024) :
    dramPlace (lineOfPlace p) = p := by
  have hline_toNat := lineOfPlace_toNat hc
  have hbits := bank_xor_row_lt p
  have hrow : (dramPlace (lineOfPlace p)).row.toNat = p.row.toNat := by
    rw [dramPlace_row_toNat, hline_toNat]; omega
  have hbank_bits : (lineOfPlace p).toNat * 64 / 0x2000 % 8 = p.bank.val ^^^ p.row.toNat % 8 := by
    rw [hline_toNat]; omega
  refine DramPlace.eq_of_vals ?rank ?bank hrow ?column
  case rank => rw [dramPlace_rank_val, hline_toNat]; omega
  case bank => rw [dramPlace_bank_val, hrow, hbank_bits, Nat.xor_assoc, Nat.xor_self, Nat.xor_zero]
  case column => rw [dramPlace_column, hline_toNat]; omega

theorem existsUnique_dramPlace_eq {p : DramPlace} (hline : p.column % 8 = 0) (hc : p.column < 1024) :
    ∃ b, dramPlace b = p ∧ ∀ b', dramPlace b' = p → b' = b := by
  refine ⟨lineOfPlace p, dramPlace_lineOfPlace hline hc, ?_⟩
  rintro b' rfl
  exact (lineOfPlace_dramPlace b').symm

theorem dramPlace_of_same_page {b b' : BackLine} (hpage : b.toNat * 64 / 4096 = b'.toNat * 64 / 4096) :
    (dramPlace b).rank = (dramPlace b').rank ∧ (dramPlace b).bank = (dramPlace b').bank ∧
    (dramPlace b).row = (dramPlace b').row := by
  have hrow : (dramPlace b).row = (dramPlace b').row := by
    refine BitVec.eq_of_toNat_eq ?_
    rw [dramPlace_row_toNat, dramPlace_row_toNat]
    omega
  have hbank_bits : b.toNat * 64 / 0x2000 % 8 = b'.toNat * 64 / 0x2000 % 8 := by omega
  refine ⟨Fin.ext ?rank, Fin.ext ?bank, hrow⟩
  case rank => rw [dramPlace_rank_val, dramPlace_rank_val]; omega
  case bank => rw [dramPlace_bank_val, dramPlace_bank_val, hrow, hbank_bits]

theorem dramPlace_column_lt_iff (b : BackLine) : (dramPlace b).column < 512 ↔ b.toNat * 64 / 4096 % 2 = 0 := by
  rw [dramPlace_column]
  omega

/-! ## Map lines (R19, R20) -/

theorem mapLineOf_toNat (d : DomId) (f : Fpn) : (mapLineOf d f).toNat = (d.toNat * 16384 + f.toNat) / 8 := by
  rw [mapLineOf, descNumber, BitVec.toNat_ofNat]
  omega

theorem descIndex_val (d : DomId) (f : Fpn) : (descIndex f).val = (d.toNat * 16384 + f.toNat) % 8 := by
  have hval : (descIndex f).val = f.toNat % 8 := rfl
  rw [hval]
  omega

/-- The pair at index `i` of map line `k` has descriptor number `8k + i`. -/
theorem descNumber_mapLine (k : MapLine) (i : Fin 8) :
    (mapLineDomain k).toNat * 16384 + (mapLineFpn k i).toNat = 8 * k.toNat + i.val := by
  rw [mapLineDomain, mapLineFpn, BitVec.toNat_ofNat, BitVec.toNat_ofNat]
  omega

theorem mapLineOf_mapLine (k : MapLine) (i : Fin 8) : mapLineOf (mapLineDomain k) (mapLineFpn k i) = k := by
  refine BitVec.eq_of_toNat_eq ?_
  rw [mapLineOf_toNat, descNumber_mapLine]
  omega

theorem eq_of_descNumber_eq {d d' : DomId} {f f' : Fpn}
    (h : d.toNat * 16384 + f.toNat = d'.toNat * 16384 + f'.toNat) : (d, f) = (d', f') := by
  have hd : d = d' := BitVec.eq_of_toNat_eq (by omega)
  have hf : f = f' := BitVec.eq_of_toNat_eq (by omega)
  rw [hd, hf]

theorem mapLine_descIndex (d : DomId) (f : Fpn) :
    (mapLineDomain (mapLineOf d f), mapLineFpn (mapLineOf d f) (descIndex f)) = (d, f) := by
  refine eq_of_descNumber_eq ?_
  rw [descNumber_mapLine, mapLineOf_toNat, descIndex_val d f]
  exact Nat.div_add_mod _ 8

theorem mapLinePairs_getElem? (k : MapLine) (i : Fin 8) :
    (mapLinePairs k)[i.val]? = some (mapLineDomain k, mapLineFpn k i) := by
  simp [mapLinePairs]

theorem mapLinePairs_mapLineOf_getElem? (d : DomId) (f : Fpn) :
    (mapLinePairs (mapLineOf d f))[(descIndex f).val]? = some (d, f) := by
  rw [mapLinePairs_getElem?, mapLine_descIndex]

theorem mem_mapLinePairs_iff (d : DomId) (f : Fpn) (k : MapLine) : (d, f) ∈ mapLinePairs k ↔ mapLineOf d f = k := by
  constructor
  · intro hmem
    obtain ⟨i, -, hi⟩ := List.mem_map.mp hmem
    obtain ⟨rfl, rfl⟩ := Prod.mk.inj hi
    exact mapLineOf_mapLine k i
  · rintro rfl
    exact List.mem_of_getElem? (mapLinePairs_mapLineOf_getElem? d f)

/-! ## The obligation -/

/-- Settles O17: the Set Buffer index bit by bit and up to equality, `lineOfPlace` as the inverse of the DRAM division,
and a pair's descriptor number as the one thing its map line and index are made of. -/
theorem addressArithmetic : Obligations.AddressArithmetic := by
  unfold Obligations.AddressArithmetic
  refine ⟨fun d d' f f' => ?setBuffer, ⟨fun b => ?fields, fun p => existsUnique_dramPlace_eq, fun b b' hpage => ?page⟩,
    fun d f k => ?map⟩
  case setBuffer => exact ⟨getLsbD_setIndex d f, setIndex_eq_iff_of_same_domain d f f', setIndex_eq_iff d d' f f'⟩
  case fields =>
    exact ⟨dramPlace_rank_val b, dramPlace_row_toNat b, dramPlace_bank_val b, dramPlace_column b,
      dramPlace_column_mod_eight b, bank_bits_eq_bank_xor_row b⟩
  case page =>
    obtain ⟨hrank, hbank, hrow⟩ := dramPlace_of_same_page hpage
    exact ⟨hrank, hbank, hrow, dramPlace_column_lt_iff b⟩
  case map =>
    exact ⟨mapLineOf_toNat d f, descIndex_val d f, mem_mapLinePairs_iff d f k, mapLinePairs_mapLineOf_getElem? d f⟩

end Sys2Proof.Machine

/-! PROOFS. UNLOCK and the three demap commands (R63 to R66, R69): how the link hands a command to its rule and answers it,
what the argument bytes name, what a demap of all leaves, and the obligation. -/

namespace Sys2Proof.Machine

/-! ## Answers of the link (R192 to R195) -/

theorem SentArgs.sent {f : Frame} {args : List Byte} {s : State} (h : SentArgs f args s) : Sent f args.length s := by
  obtain ⟨hlive, haddr, rfl⟩ := h
  exact ⟨hlive, haddr, rfl⟩

/-- A command that is sent with its argument count is answered by its rule. The rule sees the address already
acknowledged, and so leaves an acknowledged state. -/
theorem takeFrame_of_reply {f : Frame} {n : Nat} {s u : State} {rule : State → Reply} {c : AnsCode} (hsent : Sent f n s)
    (hrule : rule (acknowledge true s) = reply c (acknowledge true u)) : takeFrame f n rule s = u.answer c [] := by
  obtain ⟨hlive, haddr, hlen⟩ := hsent
  have haddressed : addressed f.addr s = true := by simp [addressed, hlive, haddr]
  rw [takeFrame, if_pos haddressed, if_pos hlen, hrule]
  rfl

/-! ## Arguments in and out of range -/

theorem argDomain_of_toNat_eq {b : Byte} {d : DomId} (h : b.toNat = d.toNat) : argDomain b = some d := by
  have hle : b.toNat ≤ 63 := by omega
  rw [argDomain, if_pos hle, h, BitVec.ofNat_toNat, BitVec.setWidth_eq]

theorem argDomain_of_lt {b : Byte} (h : 63 < b.toNat) : argDomain b = none := if_neg (by omega)

theorem argFpn_of_toNat_eq {w : BitVec 16} {p : Fpn} (h : w.toNat = p.toNat) : argFpn w = some p := by
  have hle : w.toNat ≤ 16383 := by omega
  rw [argFpn, if_pos hle, h, BitVec.ofNat_toNat, BitVec.setWidth_eq]

theorem argFpn_of_lt {w : BitVec 16} (h : 16383 < w.toNat) : argFpn w = none := if_neg (by omega)

theorem argPair_of_toNat_eq {args : List Byte} {d : DomId} {p : Fpn} (hd : (argByte args 0).toNat = d.toNat)
    (hp : (argWord args 1).toNat = p.toNat) : argPair args = some (d, p) := by
  rw [argPair, argDomain_of_toNat_eq hd, argFpn_of_toNat_eq hp]

theorem argPair_of_lt {args : List Byte} (h : 63 < (argByte args 0).toNat ∨ 16383 < (argWord args 1).toNat) :
    argPair args = none := by
  unfold argPair
  obtain hd | hp := h
  · rw [argDomain_of_lt hd]
  · rw [argFpn_of_lt hp]
    cases argDomain (argByte args 0) <;> rfl

/-! ## Demaps -/

/-- Raising a flag while the main domain works (R186): its mark joins the flags where the condition holds, and nothing else
changes. -/
theorem raiseIf_eq {s : State} (hlive : live s = true) (c : Bool) (g : Flag) :
    raiseIf c g s = { s with ev := { s.ev with flags := s.ev.flags ||| if c then g.mark else 0#11 } } := by
  cases c
  · simp [raiseIf]
  · simp [raiseIf, raise, hlive, State.onEv, EventUnit.raise]

theorem raiseIf_acknowledge (a c : Bool) (g : Flag) (s : State) :
    raiseIf c g (acknowledge a s) = acknowledge a (raiseIf c g s) := by
  have hlive : live (acknowledge a s) = live s := rfl
  unfold raiseIf raise
  rw [hlive]
  cases c <;> cases live s <;> rfl

theorem demapBy_acknowledge (a : Bool) (hit : Page → Bool) (s : State) :
    demapBy hit (acknowledge a s) = acknowledge a (demapBy hit s) :=
  raiseIf_acknowledge a (s.xlat.losesLock hit) .lockLost (s.onXlat (.demap hit))

theorem allDemap_acknowledge (a : Bool) (s : State) : allDemap (acknowledge a s) = acknowledge a (allDemap s) :=
  raiseIf_acknowledge a (s.xlat.losesLock fun _ => true) .lockLost (s.onXlat fun t =>
    { t with fixed := t.fixed.map FixedEntry.drop, sets := t.sets.map SetRow.drop })

/-- What a demap of all does (R65): every entry of both buffers is emptied, LOCK-LOST is raised for a locked one while the
main domain works, and nothing else changes. -/
theorem allDemap_eq {s : State} (hlive : live s = true) :
    allDemap s = { s with
      xlat := { s.xlat with fixed := s.xlat.fixed.map FixedEntry.drop, sets := s.xlat.sets.map SetRow.drop }
      ev := { s.ev with flags := s.ev.flags ||| LockLostMark (fun _ => true) s } } := by
  rw [lockLostMark_eq, allDemap, raiseIf_eq (by exact hlive)]
  rfl

/-! ## The Fixed Buffer entry of an UNLOCK -/

theorem Translation.onFixed_self (i : Fin 16) (g : FixedEntry → FixedEntry) (t : Translation) :
    (t.onFixed i g).fixed[i] = g t.fixed[i] := by
  simp [Translation.onFixed]

theorem Translation.onFixed_of_ne {i j : Fin 16} (h : j ≠ i) (g : FixedEntry → FixedEntry) (t : Translation) :
    (t.onFixed i g).fixed[j] = t.fixed[j] := by
  have hval : i.val ≠ j.val := fun heq => h (Fin.ext heq.symm)
  simp [Translation.onFixed, hval]

/-! ## The four commands -/

section Commands

variable {f : Frame} {s : State}

theorem transferCommand_unlock (f : Frame) : transferCommand f.addr (0x41#8 :: f.args) = some (.unlock f) := rfl

/-- UNLOCK is judged after what the last run pulse ended; where that has been taken, it is judged at once. -/
theorem exec_unlock (htaken : PulseTaken s) : exec (.unlock f) s = .next (takeFrame f 3 (ruleUnlock f.args) s) := by
  have harm : exec (.unlock f) s = execUnlock f s := rfl
  rw [harm, execUnlock, afterPulse_of_taken htaken]

theorem exec_unlock_range (htaken : PulseTaken s) (hsent : Sent f 3 s) (hargs : argPair f.args = none) :
    exec (.unlock f) s = .next (s.answer .range []) := by
  have hrule : ruleUnlock f.args (acknowledge true s) = reply .range (acknowledge true s) := by rw [ruleUnlock, hargs]
  rw [exec_unlock htaken, takeFrame_of_reply hsent hrule]

theorem exec_unlock_absent {d : DomId} {p : Fpn} (htaken : PulseTaken s) (hsent : Sent f 3 s)
    (hargs : argPair f.args = some (d, p)) (hmiss : s.xlat.fixedHit d p = none) :
    exec (.unlock f) s = .next (s.answer .absent []) := by
  have hmiss' : (acknowledge true s).xlat.fixedHit d p = none := hmiss
  have hrule : ruleUnlock f.args (acknowledge true s) = reply .absent (acknowledge true s) := by
    simp only [ruleUnlock, hargs, hmiss']
  rw [exec_unlock htaken, takeFrame_of_reply hsent hrule]

theorem exec_unlock_accepted {d : DomId} {p : Fpn} {i : Fin 16} (htaken : PulseTaken s) (hsent : Sent f 3 s)
    (hargs : argPair f.args = some (d, p)) (hhit : s.xlat.fixedHit d p = some i) :
    exec (.unlock f) s =
      .next ((s.onXlat (.onFixed i fun e => { e with lock := false })).answer .accepted []) := by
  have hhit' : (acknowledge true s).xlat.fixedHit d p = some i := hhit
  have hrule : ruleUnlock f.args (acknowledge true s) =
      reply .accepted (acknowledge true (s.onXlat (.onFixed i fun e => { e with lock := false }))) := by
    simp only [ruleUnlock, hargs, hhit']
    rfl
  rw [exec_unlock htaken, takeFrame_of_reply hsent hrule]

theorem exec_demapPage_range (hsent : Sent f 3 s) (hargs : argPair f.args = none) :
    exec (.demapPage f) s = .next (s.answer .range []) := by
  have harm : exec (.demapPage f) s = execDemapPage f s := rfl
  have hrule : ruleDemapPage f.args (acknowledge true s) = reply .range (acknowledge true s) := by rw [ruleDemapPage, hargs]
  rw [harm, execDemapPage, takeFrame_of_reply hsent hrule]

theorem exec_demapPage_accepted {d : DomId} {p : Fpn} (hsent : Sent f 3 s) (hargs : argPair f.args = some (d, p)) :
    exec (.demapPage f) s = .next ((pageDemap d p s).answer .accepted []) := by
  have harm : exec (.demapPage f) s = execDemapPage f s := rfl
  have hrule : ruleDemapPage f.args (acknowledge true s) = reply .accepted (acknowledge true (pageDemap d p s)) := by
    simp only [ruleDemapPage, hargs, pageDemap, demapBy_acknowledge]
  rw [harm, execDemapPage, takeFrame_of_reply hsent hrule]

theorem exec_demapDomain_range (hsent : Sent f 1 s) (harg : argDomain (argByte f.args 0) = none) :
    exec (.demapDomain f) s = .next (s.answer .range []) := by
  have harm : exec (.demapDomain f) s = execDemapDomain f s := rfl
  have hrule : ruleDemapDomain f.args (acknowledge true s) = reply .range (acknowledge true s) := by
    rw [ruleDemapDomain, harg]
  rw [harm, execDemapDomain, takeFrame_of_reply hsent hrule]

theorem exec_demapDomain_accepted {d : DomId} (hsent : Sent f 1 s) (harg : argDomain (argByte f.args 0) = some d) :
    exec (.demapDomain f) s = .next ((domainDemap d s).answer .accepted []) := by
  have harm : exec (.demapDomain f) s = execDemapDomain f s := rfl
  have hrule : ruleDemapDomain f.args (acknowledge true s) = reply .accepted (acknowledge true (domainDemap d s)) := by
    simp only [ruleDemapDomain, harg, domainDemap, demapBy_acknowledge]
  rw [harm, execDemapDomain, takeFrame_of_reply hsent hrule]

theorem exec_demapAll (hsent : Sent f 0 s) : exec (.demapAll f) s = .next ((allDemap s).answer .accepted []) := by
  have harm : exec (.demapAll f) s = execDemapAll f s := rfl
  have hrule : reply .accepted (allDemap (acknowledge true s)) = reply .accepted (acknowledge true (allDemap s)) := by
    rw [allDemap_acknowledge]
  rw [harm, execDemapAll, takeFrame_of_reply hsent hrule]

end Commands

/-! ## The obligation -/

/-- Settles O54: each command's answer by its rule, with `demapBy_eq` and `allDemap_eq` for what the demaps leave and the
one entry that an UNLOCK changes. -/
theorem unlockAndDemaps : Obligations.UnlockAndDemaps := by
  unfold Obligations.UnlockAndDemaps
  intro f s
  refine ⟨transferCommand_unlock f, ?pair, ?domain, ?all⟩
  case pair =>
    rintro b w d p hsent rfl rfl
    have hlive : live s = true := hsent.1
    refine ⟨fun hrange => ?range, fun hd hp => ?inRange⟩
    case range =>
      have hargs := argPair_of_lt hrange
      exact ⟨fun htaken => exec_unlock_range htaken hsent hargs, exec_demapPage_range hsent hargs⟩
    case inRange =>
      have hargs : argPair f.args = some (d, p) := argPair_of_toNat_eq hd hp
      refine ⟨fun i htaken hhit => ?hit, fun htaken hmiss => exec_unlock_absent htaken hsent hargs hmiss,
        pageDemap d p s, exec_demapPage_accepted hsent hargs, demapBy_eq hlive⟩
      exact ⟨_, exec_unlock_accepted htaken hsent hargs hhit, rfl, Translation.onFixed_self i _ s.xlat,
        fun j hj => Translation.onFixed_of_ne hj _ s.xlat⟩
  case domain =>
    intro b hsentArgs
    have hsent : Sent f 1 s := hsentArgs.sent
    obtain ⟨hlive, -, hargs⟩ := hsentArgs
    have hbyte : argByte f.args 0 = b := by simp [argByte, hargs]
    refine ⟨fun hrange => ?range, fun d hd => ?inRange⟩
    case range => exact exec_demapDomain_range hsent (hbyte ▸ argDomain_of_lt hrange)
    case inRange =>
      exact ⟨domainDemap d s, exec_demapDomain_accepted hsent (hbyte ▸ argDomain_of_toNat_eq hd), demapBy_eq hlive⟩
  case all =>
    intro hsentArgs
    have hsent : Sent f 0 s := hsentArgs.sent
    obtain ⟨hlive, -, -⟩ := hsentArgs
    refine ⟨allDemap s, exec_demapAll hsent, ?_⟩
    rw [allDemap_eq hlive]
    exact ⟨rfl, fun i => by simp [FixedEntry.drop, Held.drop], fun i => by simp [SetRow.drop, Held.drop]⟩

end Sys2Proof.Machine

/-! PROOFS. The run commands (R77 to R81): the domain and lease an argument names, the one domain record a command changes,
what refuses each command, what its acceptance leaves, and the obligation. -/

namespace Sys2Proof.Machine

/-! ## The named domain (R73, R77) -/

theorem argIssuer_of_toNat_eq {args : List Byte} {d : DomId} (hd : (argByte args 0).toNat = d.toNat) (hne : d ≠ 0#6) :
    argIssuer args = some d := by
  simp only [argIssuer, argDomain_of_toNat_eq hd, if_neg hne]

theorem argIssuer_of_out_of_range {args : List Byte} (h : argByte args 0 = 0#8 ∨ 63 < (argByte args 0).toNat) :
    argIssuer args = none := by
  obtain hzero | hlarge := h
  · have hdom : argDomain (argByte args 0) = some 0#6 := by rw [hzero]; rfl
    simp only [argIssuer, hdom, if_true]
  · simp only [argIssuer, argDomain_of_lt hlarge]

/-- An issuer domain's state is its record's; only domain 0 follows the cabinet (R73). -/
theorem domState_of_ne_zero {d : DomId} (hne : d ≠ 0#6) (s : State) : domState s d = s.doms[domIx d].state := if_neg hne

@[simp] theorem acknowledge_cab (a : Bool) (s : State) : (acknowledge a s).cab = s.cab := rfl

@[simp] theorem domState_acknowledge (a : Bool) (s : State) (d : DomId) : domState (acknowledge a s) d = domState s d := rfl

/-! ## Changing one domain record -/

theorem onDom_doms_self (d : DomId) (g : DomRec → DomRec) (s : State) :
    (onDom d g s).doms[domIx d] = g s.doms[domIx d] := by
  simp [onDom]

theorem onDom_doms_of_ne {d : DomId} {i : Fin 64} (hne : i ≠ domIx d) (g : DomRec → DomRec) (s : State) :
    (onDom d g s).doms[i] = s.doms[i] := by
  have hval : (domIx d).val ≠ i.val := fun heq => hne (Fin.ext heq.symm)
  simp [onDom, hval]

/-- The acceptance of ENROL: the domain is CLOSED and the Seed Store holds a fresh seed of it (R78). -/
def enrolDomain (d : DomId) (s : State) : State :=
  onDom d (fun r => { r with state := .closed }) (s.onSeeds fun x =>
    { x with domains := x.domains.set (domIx d).val (some (Config.freshSeed x.made)) (domIx d).isLt, made := x.made + 1 })

theorem enrolDomain_seeds_self (d : DomId) (s : State) :
    (enrolDomain d s).seeds.domains[domIx d] = some (Config.freshSeed s.seeds.made) := by
  simp [enrolDomain, onDom]

theorem enrolDomain_seeds_of_ne {d : DomId} {i : Fin 64} (hne : i ≠ domIx d) (s : State) :
    (enrolDomain d s).seeds.domains[i] = s.seeds.domains[i] := by
  have hval : (domIx d).val ≠ i.val := fun heq => hne (Fin.ext heq.symm)
  simp [enrolDomain, onDom, hval]

/-- The acceptance of OPEN-RUN: the domain is OPEN with the lease and no staged extension (R79). -/
def openDomain (d : DomId) (lease : BitVec 16) (s : State) : State :=
  onDom d (fun r => { r with state := .opened, lease := lease, staged := none, ending := false }) s

/-- The acceptance of EXTEND-RUN: the extension is staged in place of any earlier one (R80). -/
def stageExtension (d : DomId) (lease : BitVec 16) (s : State) : State :=
  onDom d (fun r => { r with staged := some lease }) s

/-! ## The end of a run (R81) -/

/-- A domain record once its run has ended. -/
def DomRec.endRun (r : DomRec) : DomRec := { r with state := .closed, lease := 0#16, staged := none, ending := false }

theorem endRun_eq_demapBy (d : DomId) (s : State) :
    endRun d s = demapBy (fun p => p.dom == d) (onDom d DomRec.endRun s) := rfl

theorem endRun_acknowledge (a : Bool) (d : DomId) (s : State) : endRun d (acknowledge a s) = acknowledge a (endRun d s) :=
  demapBy_acknowledge a (fun p => p.dom == d) (onDom d DomRec.endRun s)

/-- What the end of a run does: its record is closed, a domain demap of it is made, and nothing else changes. -/
theorem endRun_eq {s : State} (hlive : live s = true) (d : DomId) :
    endRun d s = { s with
      doms := (endRun d s).doms
      xlat := { s.xlat with fixed := (endRun d s).xlat.fixed, sets := (endRun d s).xlat.sets }
      ev := { s.ev with flags := s.ev.flags ||| LockLostMark (fun p => p.dom == d) s } } ∧
    (endRun d s).doms = (onDom d DomRec.endRun s).doms ∧ Demapped (fun p => p.dom == d) s (endRun d s) := by
  obtain ⟨hframe, hdemapped⟩ := demapBy_eq (hit := fun p => p.dom == d) (s := onDom d DomRec.endRun s) hlive
  rw [← endRun_eq_demapBy] at hframe hdemapped
  have hdoms : (endRun d s).doms = (onDom d DomRec.endRun s).doms := (congrArg State.doms hframe :)
  refine ⟨?_, hdoms, hdemapped⟩
  rw [hdoms]
  exact hframe

section Commands

variable {f : Frame} {s u : State} {c : AnsCode}

/-! ## From rule to answer

All but ENROL are judged after what the last run pulse ended; where that has been taken, they are judged at once. -/

theorem exec_enrol_of_reply (hsent : Sent f 1 s)
    (hrule : ruleEnrol f.args (acknowledge true s) = reply c (acknowledge true u)) :
    exec (.enrol f) s = .next (u.answer c []) := by
  have harm : exec (.enrol f) s = execEnrol f s := rfl
  rw [harm, execEnrol, takeFrame_of_reply hsent hrule]

theorem exec_erase_of_reply (htaken : PulseTaken s) (hsent : Sent f 1 s)
    (hrule : ruleErase f.args (acknowledge true s) = reply c (acknowledge true u)) :
    exec (.erase f) s = .next (u.answer c []) := by
  have harm : exec (.erase f) s = execErase f s := rfl
  rw [harm, execErase, afterPulse_of_taken htaken, takeFrame_of_reply hsent hrule]

theorem exec_openRun_of_reply (htaken : PulseTaken s) (hsent : Sent f 3 s)
    (hrule : ruleOpenRun f.args (acknowledge true s) = reply c (acknowledge true u)) :
    exec (.openRun f) s = .next (u.answer c []) := by
  have harm : exec (.openRun f) s = execOpenRun f s := rfl
  rw [harm, execOpenRun, afterPulse_of_taken htaken, takeFrame_of_reply hsent hrule]

theorem exec_extendRun_of_reply (htaken : PulseTaken s) (hsent : Sent f 3 s)
    (hrule : ruleExtendRun f.args (acknowledge true s) = reply c (acknowledge true u)) :
    exec (.extendRun f) s = .next (u.answer c []) := by
  have harm : exec (.extendRun f) s = execExtendRun f s := rfl
  rw [harm, execExtendRun, afterPulse_of_taken htaken, takeFrame_of_reply hsent hrule]

theorem exec_closeRun_of_reply (htaken : PulseTaken s) (hsent : Sent f 1 s)
    (hrule : ruleCloseRun f.args (acknowledge true s) = reply c (acknowledge true u)) :
    exec (.closeRun f) s = .next (u.answer c []) := by
  have harm : exec (.closeRun f) s = execCloseRun f s := rfl
  rw [harm, execCloseRun, afterPulse_of_taken htaken, takeFrame_of_reply hsent hrule]

end Commands

section Rules

variable {args : List Byte} {d : DomId} {s : State}

theorem readyOrRestore_iff : readyOrRestore s = true ↔ s.cab.cabinet = .ready ∨ s.cab.cabinet = .restore := by
  simp [readyOrRestore]

theorem readyOrRestore_eq_false (h : s.cab.cabinet ≠ .ready ∧ s.cab.cabinet ≠ .restore) : readyOrRestore s = false := by
  simpa [readyOrRestore] using h

/-! ## Refusals for the arguments (R77 step 1) -/

theorem ruleEnrol_range (h : argIssuer args = none) : ruleEnrol args s = reply .range s := by rw [ruleEnrol, h]

theorem ruleErase_range (h : argIssuer args = none) : ruleErase args s = reply .range s := by rw [ruleErase, h]

theorem ruleOpenRun_range (h : argIssuer args = none ∨ argWord args 1 = 0#16) : ruleOpenRun args s = reply .range s := by
  unfold ruleOpenRun
  split
  case h_1 => rfl
  case h_2 d hd => rw [if_pos (h.resolve_left (by simp [hd]))]

theorem ruleExtendRun_range (h : argIssuer args = none ∨ argWord args 1 = 0#16) :
    ruleExtendRun args s = reply .range s := by
  unfold ruleExtendRun
  split
  case h_1 => rfl
  case h_2 d hd => rw [if_pos (h.resolve_left (by simp [hd]))]

theorem ruleCloseRun_range (h : argIssuer args = none) : ruleCloseRun args s = reply .range s := by rw [ruleCloseRun, h]

/-! ## Refusals for the cabinet and domain states (R77 steps 2 and 3) -/

theorem ruleEnrol_state (hd : argIssuer args = some d)
    (h : (s.cab.cabinet ≠ .ready ∧ s.cab.cabinet ≠ .restore) ∨ domState s d ≠ .vacant) :
    ruleEnrol args s = reply .state s := by
  simp only [ruleEnrol, hd]
  obtain hcab | hdom := h
  · rw [if_pos (readyOrRestore_eq_false hcab)]
  · rw [if_pos hdom, ite_self]

theorem ruleErase_state (hd : argIssuer args = some d)
    (h : (s.cab.cabinet ≠ .ready ∧ s.cab.cabinet ≠ .restore) ∨ domState s d ≠ .closed ∧ domState s d ≠ .opened) :
    ruleErase args s = reply .state s := by
  simp only [ruleErase, hd]
  obtain hcab | hdom := h
  · rw [if_pos (readyOrRestore_eq_false hcab)]
  · rw [if_pos hdom, ite_self]

theorem ruleOpenRun_state (hd : argIssuer args = some d) (hlease : argWord args 1 ≠ 0#16)
    (h : s.cab.cabinet ≠ .ready ∨ domState s d ≠ .closed) : ruleOpenRun args s = reply .state s := by
  simp only [ruleOpenRun, hd, if_neg hlease]
  obtain hcab | hdom := h
  · rw [if_pos hcab]
  · rw [if_pos hdom, ite_self]

theorem ruleExtendRun_state (hd : argIssuer args = some d) (hlease : argWord args 1 ≠ 0#16)
    (h : s.cab.cabinet ≠ .ready ∨ domState s d ≠ .opened) : ruleExtendRun args s = reply .state s := by
  simp only [ruleExtendRun, hd, if_neg hlease]
  obtain hcab | hdom := h
  · rw [if_pos hcab]
  · rw [if_pos hdom, ite_self]

theorem ruleCloseRun_state (hd : argIssuer args = some d)
    (h : s.cab.cabinet ≠ .ready ∨ domState s d ≠ .opened) : ruleCloseRun args s = reply .state s := by
  simp only [ruleCloseRun, hd]
  obtain hcab | hdom := h
  · rw [if_pos hcab]
  · rw [if_pos hdom, ite_self]

/-! ## Acceptances (R78 to R81) -/

theorem ruleEnrol_accepted (hd : argIssuer args = some d) (hcab : s.cab.cabinet = .ready ∨ s.cab.cabinet = .restore)
    (hdom : domState s d = .vacant) : ruleEnrol args s = reply .accepted (enrolDomain d s) := by
  simp only [ruleEnrol, hd, readyOrRestore_iff.mpr hcab, hdom, ne_eq, not_true_eq_false, Bool.true_eq_false, if_false,
    enrolDomain]

theorem ruleOpenRun_accepted (hd : argIssuer args = some d) (hlease : argWord args 1 ≠ 0#16)
    (hcab : s.cab.cabinet = .ready) (hdom : domState s d = .closed) :
    ruleOpenRun args s = reply .accepted (openDomain d (argWord args 1) s) := by
  simp only [ruleOpenRun, hd, if_neg hlease, hcab, hdom, ne_eq, not_true_eq_false, if_false, openDomain]

theorem ruleExtendRun_accepted (hd : argIssuer args = some d) (hlease : argWord args 1 ≠ 0#16)
    (hcab : s.cab.cabinet = .ready) (hdom : domState s d = .opened) :
    ruleExtendRun args s = reply .accepted (stageExtension d (argWord args 1) s) := by
  simp only [ruleExtendRun, hd, if_neg hlease, hcab, hdom, ne_eq, not_true_eq_false, if_false, stageExtension]

theorem ruleCloseRun_accepted (hd : argIssuer args = some d) (hcab : s.cab.cabinet = .ready)
    (hdom : domState s d = .opened) : ruleCloseRun args s = reply .accepted (endRun d s) := by
  simp only [ruleCloseRun, hd, hcab, hdom, ne_eq, not_true_eq_false, if_false]

end Rules

/-! ## The obligation -/

/-- Settles O50: each command's answer by its rule; the refusals command by command, and for the acceptances the one
record that `onDom` changes, the seed that ENROL places and `endRun_eq` for the demap of CLOSE-RUN. -/
theorem runCommands : Obligations.RunCommands := by
  unfold Obligations.RunCommands
  rintro f s b d n rfl hn
  have hlease : Sent f 3 s → n = argWord f.args 1 := fun ⟨_, _, hlen⟩ => hn hlen
  refine ⟨?refused, fun htaken hsent hzero => ?noLease, fun hd hne => ?accepted⟩
  case refused =>
    intro c hc htaken
    refine ⟨fun hout => ?range, fun hd hne hpos hstate => ?state⟩
    case range =>
      have hargs : argIssuer f.args = none := argIssuer_of_out_of_range hout
      obtain ⟨rfl | rfl | rfl, hsent⟩ | ⟨rfl | rfl, hsent⟩ := hc
      · exact exec_enrol_of_reply hsent (ruleEnrol_range hargs)
      · exact exec_closeRun_of_reply (htaken (by simp)) hsent (ruleCloseRun_range hargs)
      · exact exec_erase_of_reply (htaken (by simp)) hsent (ruleErase_range hargs)
      · exact exec_openRun_of_reply (htaken (by simp)) hsent (ruleOpenRun_range (.inl hargs))
      · exact exec_extendRun_of_reply (htaken (by simp)) hsent (ruleExtendRun_range (.inl hargs))
    case state =>
      have hargs : argIssuer f.args = some d := argIssuer_of_toNat_eq hd hne
      rw [← domState_of_ne_zero hne s] at hstate
      obtain ⟨rfl | rfl | rfl, hsent⟩ | ⟨rfl | rfl, hsent⟩ := hc
      · exact exec_enrol_of_reply hsent (ruleEnrol_state hargs (by simpa using hstate))
      · exact exec_closeRun_of_reply (htaken (by simp)) hsent (ruleCloseRun_state hargs (by simpa using hstate))
      · exact exec_erase_of_reply (htaken (by simp)) hsent (ruleErase_state hargs (by simpa using hstate))
      · have hword : argWord f.args 1 ≠ 0#16 := hlease hsent ▸ hpos (.inl rfl)
        exact exec_openRun_of_reply (htaken (by simp)) hsent (ruleOpenRun_state hargs hword (by simpa using hstate))
      · have hword : argWord f.args 1 ≠ 0#16 := hlease hsent ▸ hpos (.inr rfl)
        exact exec_extendRun_of_reply (htaken (by simp)) hsent (ruleExtendRun_state hargs hword (by simpa using hstate))
  case noLease =>
    have hword : argWord f.args 1 = 0#16 := hlease hsent ▸ hzero
    exact ⟨exec_openRun_of_reply htaken hsent (ruleOpenRun_range (.inr hword)),
      exec_extendRun_of_reply htaken hsent (ruleExtendRun_range (.inr hword))⟩
  case accepted =>
    have hargs : argIssuer f.args = some d := argIssuer_of_toNat_eq hd hne
    rw [← domState_of_ne_zero hne s]
    refine ⟨fun hsent hcab hdom => ?enrol, fun htaken hsent hpos hcab => ⟨fun hdom => ?openRun, fun hdom => ?extendRun⟩,
      fun htaken hsent hcab hdom => ?closeRun⟩
    case enrol =>
      exact ⟨enrolDomain d s, _, exec_enrol_of_reply hsent (ruleEnrol_accepted hargs hcab hdom), rfl,
        onDom_doms_self d _ _, enrolDomain_seeds_self d s, fun i hi => ⟨onDom_doms_of_ne hi _ _, enrolDomain_seeds_of_ne hi s⟩⟩
    case openRun =>
      obtain rfl := hlease hsent
      exact ⟨openDomain d (argWord f.args 1) s,
        exec_openRun_of_reply htaken hsent (ruleOpenRun_accepted hargs hpos hcab hdom), rfl,
        onDom_doms_self d _ s, fun i hi => onDom_doms_of_ne hi _ s⟩
    case extendRun =>
      obtain rfl := hlease hsent
      exact ⟨stageExtension d (argWord f.args 1) s,
        exec_extendRun_of_reply htaken hsent (ruleExtendRun_accepted hargs hpos hcab hdom), rfl,
        onDom_doms_self d _ s, fun i hi => onDom_doms_of_ne hi _ s⟩
    case closeRun =>
      have hlive : live s = true := hsent.1
      obtain ⟨hframe, hdoms, hdemapped⟩ := endRun_eq hlive d
      have hrule : ruleCloseRun f.args (acknowledge true s) = reply .accepted (acknowledge true (endRun d s)) := by
        rw [ruleCloseRun_accepted (s := acknowledge true s) hargs hcab hdom, endRun_acknowledge]
      refine ⟨endRun d s, exec_closeRun_of_reply htaken hsent hrule, hframe, ?_, fun i hi => ?_, hdemapped⟩
      · rw [hdoms, onDom_doms_self, DomRec.endRun]
      · rw [hdoms, onDom_doms_of_ne hi]

end Sys2Proof.Machine

/-! PROOFS. The readouts (R84, R116, R160, R185, R189, R200, R204): how a field of bytes is read back, what the fields of
each readout's data are, what each command answers, and the obligation. -/

namespace Sys2Proof.Machine

/-! ## Fields of bytes, low byte first (R204) -/

@[simp] theorem length_bytesOf (n v : Nat) : (bytesOf n v).length = n := by simp [bytesOf]

theorem bytesOf_succ (n v : Nat) : bytesOf (n + 1) v = BitVec.ofNat 8 v :: bytesOf n (v / 256) := by
  simp [bytesOf, List.range_succ_eq_map, Nat.pow_succ', Nat.div_div_eq_div_mul]

theorem leNat_bytesOf (n v : Nat) : leNat (bytesOf n v) = v % 256 ^ n := by
  induction n generalizing v with
  | zero => simp [bytesOf, leNat, Nat.mod_one]
  | succ n ih => rw [bytesOf_succ, leNat, ih, BitVec.toNat_ofNat, Nat.pow_succ' (m := 256), Nat.mod_mul (x := v) (a := 256)]

/-- The first field of some data is the number it was made from, as far as its bytes hold it. -/
theorem leAt_bytesOf_append (n v : Nat) (rest : List Byte) : leAt (bytesOf n v ++ rest) 0 n = v % 256 ^ n := by
  rw [leAt, List.drop_zero, List.take_left' (length_bytesOf n v), leNat_bytesOf]

theorem leAt_bytesOf (n v : Nat) : leAt (bytesOf n v) 0 n = v % 256 ^ n := by
  simpa using leAt_bytesOf_append n v []

/-- A field further on is read from the data after the first field. -/
theorem leAt_bytesOf_append_of_le {n offset : Nat} (h : n ≤ offset) (v : Nat) (rest : List Byte) (k : Nat) :
    leAt (bytesOf n v ++ rest) offset k = leAt rest (offset - n) k := by
  have hlen : (bytesOf n v).length ≤ offset := by rwa [length_bytesOf]
  rw [leAt, leAt, List.drop_append, List.drop_eq_nil_of_le hlen, length_bytesOf, List.nil_append]

/-! ## Codes and marks that fit into a byte (R204) -/

theorem CabState.code_lt (c : CabState) : c.code < 256 := by cases c <;> decide

theorem BgOp.code_lt (o : BgOp) : o.code < 256 := by cases o <;> decide

theorem DomState.code_lt (x : DomState) : x.code < 256 := by cases x <;> decide

theorem EntryPhase.code_lt (p : EntryPhase) : p.code < 256 := by cases p <;> decide

theorem Kind.rank_lt (k : Kind) : k.rank < 256 := by cases k <;> decide

theorem Reason.code_lt (r : Reason) : r.code < 256 := by cases r <;> decide

theorem Region.code_lt (r : Region) : r.code < 256 := by cases r <;> decide

theorem ConvMode.code_lt (m : ConvMode) : m.code < 256 := by
  cases m with
  | sweep => decide
  | focus c => rw [ConvMode.code]; omega

theorem WindowState.code_le (w : WindowState) : w.code ≤ 2 := by cases w <;> decide

theorem bit_le (b : Bool) : bit b ≤ 1 := by cases b <;> decide

theorem mul_bit (n : Nat) (b : Bool) : n * bit b = if b then n else 0 := by cases b <;> simp [bit]

/-! ## STATUS (R200) -/

theorem statusFlags_lt (s : State) : statusFlags s < 256 := by
  have hsub := bit_le (s.cab.sub == .quiet)
  have hclear := bit_le s.seeds.clearPending
  have hbattery := bit_le (s.cab.power == .battery)
  have hscrub := bit_le s.cab.scrubOn
  have harmed := bit_le (armed s)
  have hvalid := bit_le s.mon.record.valid
  have hlid := bit_le s.mon.lid.on
  have hpanel := bit_le s.mon.panel.on
  rw [statusFlags]
  omega

theorem statusFlags_eq (s : State) :
    statusFlags s = (if s.cab.sub = .quiet then 1 else 0) + (if s.seeds.clearPending then 2 else 0) +
      (if s.cab.power = .battery then 4 else 0) + (if s.cab.scrubOn then 8 else 0) +
      (if s.cab.cabinet = .blank then 0 else 16) + (if s.mon.record.valid then 32 else 0) +
      (if s.mon.lid.on then 64 else 0) + (if s.mon.panel.on then 128 else 0) := by
  simp only [statusFlags, mul_bit, armed, beq_iff_eq, bne_iff_ne, ne_eq, ite_not]
  simp only [bit, beq_iff_eq]

theorem statusWindows_lt (u : EntryUnit) : statusWindows u < 256 := by
  have hA := bit_le u.switchA.on
  have hB := bit_le u.switchB.on
  have hwA := u.windowA.state.code_le
  have hwB := u.windowB.state.code_le
  rw [statusWindows]
  omega

theorem statusWindows_eq (u : EntryUnit) :
    statusWindows u = (if u.switchA.on then 1 else 0) + (if u.switchB.on then 2 else 0) +
      4 * u.windowA.state.code + 16 * u.windowB.state.code := by
  rw [statusWindows, mul_bit, bit]

theorem entryDomainCode_lt (x : Option DomId) : (x.map BitVec.toNat).getD 255 < 256 := by
  cases x with
  | none => decide
  | some d => simp only [Option.map_some, Option.getD_some]; omega

theorem pabCode_lt (p : PabIndex) : pabCode p < 65536 := by rw [pabCode, pabBase]; omega

theorem pabCode_mul (p : PabIndex) : pabCode p * 65536 = pabBase p := by rw [pabCode, pabBase]; omega

theorem linkAddress_toNat (s : State) : (linkAddress s).toNat = 0x4C + s.link.strap.toNat := by
  rw [linkAddress, BitVec.toNat_add, BitVec.toNat_setWidth, BitVec.toNat_ofNat]
  omega

@[simp] theorem length_statusData (s : State) : (statusData s).length = 28 := by simp [statusData]

theorem statusData_cabinet_fields (s : State) :
    leAt (statusData s) 0 1 = s.cab.cabinet.code ∧ leAt (statusData s) 1 1 = statusFlags s ∧
    leAt (statusData s) 2 1 = s.cab.bg.op.code ∧ leAt (statusData s) 3 3 = s.cab.bg.next % 0x1000000 ∧
    leAt (statusData s) 6 3 = s.cab.bg.completed % 0x1000000 ∧ leAt (statusData s) 9 1 = s.mon.mode.code := by
  have hcab := s.cab.cabinet.code_lt
  have hflags := statusFlags_lt s
  have hop := s.cab.bg.op.code_lt
  have hmode := s.mon.mode.code_lt
  simp (disch := omega) [statusData, leAt_bytesOf_append, leAt_bytesOf_append_of_le, Nat.mod_eq_of_lt]

theorem statusData_entry_fields (s : State) :
    leAt (statusData s) 10 1 = statusWindows s.entry ∧ leAt (statusData s) 11 2 = s.entry.windowA.remaining.toNat ∧
    leAt (statusData s) 13 2 = s.entry.windowB.remaining.toNat ∧
    leAt (statusData s) 15 1 = (s.entry.domain.map BitVec.toNat).getD 255 ∧
    leAt (statusData s) 16 1 = s.entry.list.length % 256 ∧ leAt (statusData s) 17 2 = s.entry.limit.toNat := by
  have hwindows := statusWindows_lt s.entry
  have hdomain := entryDomainCode_lt s.entry.domain
  simp (disch := omega) [statusData, leAt_bytesOf_append, leAt_bytesOf_append_of_le, Nat.mod_eq_of_lt]

theorem statusData_settings_fields (s : State) :
    leAt (statusData s) 19 2 = s.ev.flags.toNat ∧ leAt (statusData s) 21 2 = s.ev.enables.toNat ∧
    leAt (statusData s) 23 2 = pabCode s.seeds.pab ∧ leAt (statusData s) 25 2 = s.run.compare % 65536 ∧
    leAt (statusData s) 27 1 = (linkAddress s).toNat := by
  have hpab := pabCode_lt s.seeds.pab
  simp (disch := omega) [statusData, leAt_bytesOf_append, leAt_bytesOf, leAt_bytesOf_append_of_le, Nat.mod_eq_of_lt]

/-! ## READ-DOMAIN (R84) and READ-ENTRY (R116) -/

theorem stagedLease_lt (x : Option (BitVec 16)) : (x.map BitVec.toNat).getD 0 < 65536 := by
  cases x with
  | none => decide
  | some n => simp only [Option.map_some, Option.getD_some]; omega

@[simp] theorem length_domainData (s : State) (d : DomId) : (domainData s d).length = 7 := by simp [domainData]

theorem domainData_fields (s : State) (d : DomId) :
    leAt (domainData s d) 0 1 = (domState s d).code ∧ leAt (domainData s d) 1 1 = s.doms[domIx d].epoch.toNat ∧
    leAt (domainData s d) 2 1 = bit (seedPresent s d) + 2 * bit s.doms[domIx d].staged.isSome ∧
    leAt (domainData s d) 3 2 = s.doms[domIx d].lease.toNat ∧
    leAt (domainData s d) 5 2 = (s.doms[domIx d].staged.map BitVec.toNat).getD 0 := by
  have hstate := (domState s d).code_lt
  have hseed := bit_le (seedPresent s d)
  have hbit := bit_le s.doms[domIx d].staged.isSome
  have hstaged := stagedLease_lt s.doms[domIx d].staged
  simp (disch := omega) only [domainData, List.append_assoc, leAt_bytesOf_append, leAt_bytesOf, leAt_bytesOf_append_of_le,
    Nat.mod_eq_of_lt, Nat.reduceSub, and_self]

@[simp] theorem length_entryData (e : EntryRec) : (entryData e).length = 23 := by simp [entryData]

theorem entryData_fields (e : EntryRec) :
    leAt (entryData e) 0 1 = e.dom.toNat ∧ leAt (entryData e) 1 2 = e.fpn.toNat ∧
    leAt (entryData e) 3 2 = e.bpn.toNat ∧ leAt (entryData e) 5 1 = e.phase.code ∧
    leAt (entryData e) 6 1 = (custCode e.first).toNat ∧ leAt (entryData e) 7 8 = e.firstSet.toNat ∧
    leAt (entryData e) 15 8 = e.combinedSet.toNat := by
  have hphase := e.phase.code_lt
  simp (disch := omega) [entryData, leAt_bytesOf_append, leAt_bytesOf, leAt_bytesOf_append_of_le, Nat.mod_eq_of_lt]

/-! ## READ-EXPIRED (R189) and READ-REFUSAL (R185) -/

@[simp] theorem length_expiredData (e : EventUnit) : (expiredData e).length = 8 := length_bytesOf 8 _

theorem leAt_expiredData (e : EventUnit) : leAt (expiredData e) 0 8 = e.expired.toNat := by
  rw [expiredData, leAt_bytesOf]
  omega

theorem refusalData_of_none {e : EventUnit} (h : e.record = none) : refusalData e = List.replicate 13 0#8 := by
  rw [refusalData, h]
  rfl

theorem length_refusalData (e : EventUnit) : (refusalData e).length = 13 := by
  unfold refusalData
  cases e.record <;> simp

theorem frontAddr_lt (l : FrontLine) : frontAddr l < 256 ^ 4 := by rw [frontAddr]; omega

theorem refusalData_fields {e : EventUnit} {r : Report} (h : e.record = some r) :
    leAt (refusalData e) 0 1 = 1 + 2 * bit e.overwritten ∧ leAt (refusalData e) 1 1 = r.kind.rank ∧
    leAt (refusalData e) 2 1 = r.reason.code ∧ leAt (refusalData e) 3 1 = r.region.code ∧
    leAt (refusalData e) 4 1 = r.dom.toNat ∧
    leAt (refusalData e) 5 1 = bit (r.priv == .kernel) + 2 * bit (r.dir == .write) ∧
    leAt (refusalData e) 6 4 = frontAddr r.line ∧ leAt (refusalData e) 10 1 = r.tag.toNat ∧
    leAt (refusalData e) 11 2 = e.count.toNat := by
  have hover := bit_le e.overwritten
  have hrank := r.kind.rank_lt
  have hreason := r.reason.code_lt
  have hregion := r.region.code_lt
  have hpriv := bit_le (r.priv == .kernel)
  have hdir := bit_le (r.dir == .write)
  have hline := frontAddr_lt r.line
  simp (disch := omega) only [refusalData, h, List.append_assoc, leAt_bytesOf_append, leAt_bytesOf,
    leAt_bytesOf_append_of_le, Nat.mod_eq_of_lt, Nat.reduceSub, and_self]

/-! ## READ-RESULTS (R160) -/

/-- The bytes of the results: for each its channel and its code. -/
def historyBytes (h : List (Fin 8 × Byte)) : List Byte := h.flatMap fun r => bytesOf 1 r.1.val ++ [r.2]

theorem resultsData_eq (m : Monitor) : resultsData m = bytesOf 1 m.history.length ++ historyBytes m.history := rfl

theorem historyBytes_cons (r : Fin 8 × Byte) (h : List (Fin 8 × Byte)) :
    historyBytes (r :: h) = BitVec.ofNat 8 r.1.val :: r.2 :: historyBytes h := by
  simp [historyBytes, bytesOf]

theorem length_historyBytes (h : List (Fin 8 × Byte)) : (historyBytes h).length = 2 * h.length := by
  induction h with
  | nil => rfl
  | cons r h ih => rw [historyBytes_cons, List.length_cons, List.length_cons, List.length_cons, ih]; omega

theorem historyBytes_fields {h : List (Fin 8 × Byte)} {i : Nat} {r : Fin 8 × Byte} (hr : h[i]? = some r) :
    leAt (historyBytes h) (2 * i) 1 = r.1.val ∧ leAt (historyBytes h) (2 * i + 1) 1 = r.2.toNat := by
  induction h generalizing i with
  | nil => simp at hr
  | cons q h ih =>
    rw [historyBytes_cons]
    cases i with
    | zero =>
      obtain rfl : q = r := by simpa using hr
      have hchannel : q.1.val % 256 = q.1.val := by omega
      simp [leAt, leNat, hchannel]
    | succ i => exact ih (by simpa using hr)

theorem length_resultsData (m : Monitor) : (resultsData m).length = 1 + 2 * m.history.length := by
  rw [resultsData_eq, List.length_append, length_bytesOf, length_historyBytes]

theorem leAt_resultsData_zero {m : Monitor} (h : m.history.length ≤ 4) : leAt (resultsData m) 0 1 = m.history.length := by
  rw [resultsData_eq, leAt_bytesOf_append]
  omega

theorem resultsData_fields {m : Monitor} {i : Nat} {r : Fin 8 × Byte} (hr : m.history[i]? = some r) :
    leAt (resultsData m) (1 + 2 * i) 1 = r.1.val ∧ leAt (resultsData m) (2 + 2 * i) 1 = r.2.toNat := by
  have hchannel : 1 + 2 * i - 1 = 2 * i := by omega
  have hcode : 2 + 2 * i - 1 = 2 * i + 1 := by omega
  rw [resultsData_eq, leAt_bytesOf_append_of_le (by omega), leAt_bytesOf_append_of_le (by omega), hchannel, hcode]
  exact historyBytes_fields hr

/-! ## What each command answers -/

/-- A readout that is sent with its argument count is answered ACCEPTED with its data, and nothing else changes. The rule
sees the address already acknowledged, which no readout shows. -/
theorem takeFrame_of_replyData {f : Frame} {n : Nat} {s : State} {rule : State → Reply} {data : List Byte}
    (hsent : Sent f n s) (hrule : rule (acknowledge true s) = replyData data (acknowledge true s)) :
    takeFrame f n rule s = s.answer .accepted data := by
  obtain ⟨hlive, haddr, hlen⟩ := hsent
  have haddressed : addressed f.addr s = true := by simp [addressed, hlive, haddr]
  rw [takeFrame, if_pos haddressed, if_pos hlen, hrule]
  rfl

theorem SentArgs.argByte_zero {f : Frame} {b : Byte} {args : List Byte} {s : State} (h : SentArgs f (b :: args) s) :
    argByte f.args 0 = b := by
  obtain ⟨-, -, hargs⟩ := h
  rw [argByte, hargs, List.getD_cons_zero]

section Commands

variable {f : Frame} {s : State}

theorem transferCommand_readEntry (f : Frame) : transferCommand f.addr (0x32#8 :: f.args) = some (.readEntry f) := rfl

theorem exec_status (htaken : PulseTaken s) (hsent : Sent f 0 s) :
    exec (.status f) s = .next (s.answer .accepted (statusData s)) := by
  have harm : exec (.status f) s = execStatus f s := rfl
  rw [harm, execStatus, afterPulse_of_taken htaken]
  exact congrArg Host.Outcome.next (takeFrame_of_replyData hsent rfl)

theorem exec_readDomain (htaken : PulseTaken s) :
    exec (.readDomain f) s = .next (takeFrame f 1 (ruleReadDomain f.args) s) := by
  have harm : exec (.readDomain f) s = execReadDomain f s := rfl
  rw [harm, execReadDomain, afterPulse_of_taken htaken]

theorem exec_readDomain_range (htaken : PulseTaken s) (hsent : Sent f 1 s) (harg : argDomain (argByte f.args 0) = none) :
    exec (.readDomain f) s = .next (s.answer .range []) := by
  have hrule : ruleReadDomain f.args (acknowledge true s) = reply .range (acknowledge true s) := by
    rw [ruleReadDomain, harg]
  rw [exec_readDomain htaken, takeFrame_of_reply hsent hrule]

theorem exec_readDomain_accepted {d : DomId} (htaken : PulseTaken s) (hsent : Sent f 1 s)
    (harg : argDomain (argByte f.args 0) = some d) :
    exec (.readDomain f) s = .next (s.answer .accepted (domainData s d)) := by
  have hrule : ruleReadDomain f.args (acknowledge true s) = replyData (domainData s d) (acknowledge true s) := by
    rw [ruleReadDomain, harg]
    rfl
  rw [exec_readDomain htaken, takeFrame_of_replyData hsent hrule]

theorem exec_readEntry (htaken : PulseTaken s) :
    exec (.readEntry f) s = .next (takeFrame f 1 (ruleReadEntry f.args) s) := by
  have harm : exec (.readEntry f) s = execReadEntry f s := rfl
  rw [harm, execReadEntry, afterPulse_of_taken htaken]

theorem exec_readEntry_range (htaken : PulseTaken s) (hsent : Sent f 1 s) (hlarge : 31 < (argByte f.args 0).toNat) :
    exec (.readEntry f) s = .next (s.answer .range []) := by
  have hrule : ruleReadEntry f.args (acknowledge true s) = reply .range (acknowledge true s) := if_pos hlarge
  rw [exec_readEntry htaken, takeFrame_of_reply hsent hrule]

theorem exec_readEntry_absent (htaken : PulseTaken s) (hsent : Sent f 1 s) (hindex : (argByte f.args 0).toNat ≤ 31)
    (hnone : s.entry.list[(argByte f.args 0).toNat]? = none) :
    exec (.readEntry f) s = .next (s.answer .absent []) := by
  have hnone' : (acknowledge true s).entry.list[(argByte f.args 0).toNat]? = none := hnone
  have hrule : ruleReadEntry f.args (acknowledge true s) = reply .absent (acknowledge true s) := by
    simp only [ruleReadEntry, if_neg (Nat.not_lt.mpr hindex), hnone']
  rw [exec_readEntry htaken, takeFrame_of_reply hsent hrule]

theorem exec_readEntry_accepted {e : EntryRec} (htaken : PulseTaken s) (hsent : Sent f 1 s)
    (hindex : (argByte f.args 0).toNat ≤ 31) (hsome : s.entry.list[(argByte f.args 0).toNat]? = some e) :
    exec (.readEntry f) s = .next (s.answer .accepted (entryData e)) := by
  have hsome' : (acknowledge true s).entry.list[(argByte f.args 0).toNat]? = some e := hsome
  have hrule : ruleReadEntry f.args (acknowledge true s) = replyData (entryData e) (acknowledge true s) := by
    simp only [ruleReadEntry, if_neg (Nat.not_lt.mpr hindex), hsome']
  rw [exec_readEntry htaken, takeFrame_of_replyData hsent hrule]

theorem exec_readExpired (htaken : PulseTaken s) (hsent : Sent f 0 s) :
    exec (.readExpired f) s = .next (s.answer .accepted (expiredData s.ev)) := by
  have harm : exec (.readExpired f) s = execReadExpired f s := rfl
  rw [harm, execReadExpired, afterPulse_of_taken htaken]
  exact congrArg Host.Outcome.next (takeFrame_of_replyData hsent rfl)

theorem exec_readRefusal (hsent : Sent f 0 s) :
    exec (.readRefusal f) s = .next (s.answer .accepted (refusalData s.ev)) := by
  have harm : exec (.readRefusal f) s = execReadRefusal f s := rfl
  rw [harm, execReadRefusal]
  exact congrArg Host.Outcome.next (takeFrame_of_replyData hsent rfl)

theorem exec_readResults (hsent : Sent f 0 s) :
    exec (.readResults f) s = .next (s.answer .accepted (resultsData s.mon)) := by
  have harm : exec (.readResults f) s = execReadResults f s := rfl
  rw [harm, execReadResults]
  exact congrArg Host.Outcome.next (takeFrame_of_replyData hsent rfl)

end Commands

/-! ## The obligation -/

/-- Settles O46: each readout's answer by its rule, with the `_fields` lemmas for its data. -/
theorem readouts : Obligations.Readouts := by
  unfold Obligations.Readouts
  intro f s
  refine ⟨transferCommand_readEntry f, fun htaken hargs => ?status, fun b htaken hargs => ?indexed,
    fun hargs => ⟨fun htaken => ?expired, fun hnone => ?noRefusal, fun r hr => ?refusal, fun hlen => ?results⟩⟩
  case status =>
    obtain ⟨hcab, hflags, hop, hnext, hdone, hmode⟩ := statusData_cabinet_fields s
    obtain ⟨hwindows, hA, hB, hdom, hlist, hlimit⟩ := statusData_entry_fields s
    obtain ⟨hraised, henables, hpab, hcompare, haddr⟩ := statusData_settings_fields s
    refine ⟨statusData s, exec_status htaken hargs.sent, length_statusData s, hcab, hflags.trans (statusFlags_eq s), hop,
      hnext, hdone, fun c hfocus => ?_, fun hsweep => ?_, hwindows.trans (statusWindows_eq s.entry), hA, hB, hdom.trans ?_,
      hlist, hlimit, hraised, henables, ?_, hcompare, haddr.trans (linkAddress_toNat s)⟩
    · rw [hmode, hfocus, ConvMode.code]
    · rw [hmode, hsweep, ConvMode.code]
    · cases s.entry.domain <;> rfl
    · rw [hpab, pabCode_mul]
  case indexed =>
    have hsent : Sent f 1 s := hargs.sent
    obtain rfl := hargs.argByte_zero
    refine ⟨fun hlarge => ?domainRange, fun d hd => ?domain, fun hlarge => ?entryRange, fun hindex habsent => ?entryAbsent,
      fun e hindex he => ?entry⟩
    case domainRange => exact exec_readDomain_range htaken hsent (argDomain_of_lt hlarge)
    case domain =>
      obtain ⟨hstate, hepoch, hmarks, hlease, hstaged⟩ := domainData_fields s d
      refine ⟨domainData s d, exec_readDomain_accepted htaken hsent (argDomain_of_toNat_eq hd.symm),
        length_domainData s d, hstate, hepoch, hmarks.trans ?_, hlease, hstaged.trans ?_⟩
      · rw [mul_bit, bit, seedPresent]
      · cases s.doms[domIx d].staged <;> rfl
    case entryRange => exact exec_readEntry_range htaken hsent hlarge
    case entryAbsent => exact exec_readEntry_absent htaken hsent hindex (List.getElem?_eq_none habsent)
    case entry =>
      obtain ⟨hdom, hfpn, hbpn, hphase, hfirst, hsets⟩ := entryData_fields e
      refine ⟨entryData e, exec_readEntry_accepted htaken hsent hindex he, length_entryData e,
        hdom, hfpn, hbpn, hphase, hfirst.trans ?_, hsets⟩
      cases e.first <;> rfl
  case expired =>
    exact ⟨expiredData s.ev, exec_readExpired htaken hargs.sent, length_expiredData s.ev, leAt_expiredData s.ev⟩
  case noRefusal => rw [exec_readRefusal hargs.sent, refusalData_of_none hnone]
  case refusal =>
    obtain ⟨hover, hkind, hreason, hregion, hdom, haccess, hrest⟩ := refusalData_fields hr
    refine ⟨refusalData s.ev, exec_readRefusal hargs.sent, length_refusalData s.ev, hover.trans ?_, hkind, hreason,
      hregion, hdom, haccess.trans ?_, hrest⟩
    · cases s.ev.overwritten <;> rfl
    · cases r.priv <;> cases r.dir <;> rfl
  case results =>
    exact ⟨resultsData s.mon, exec_readResults hargs.sent, length_resultsData s.mon, leAt_resultsData_zero hlen,
      fun i r hr => resultsData_fields hr⟩

end Sys2Proof.Machine

/-! PROOFS. READ-TAMPER and ACK-TAMPER (R158, R159): the fields of READ-TAMPER's data, what the monitor is after an
ACK-TAMPER, what each command answers, and the obligation. -/

namespace Sys2Proof.Machine

/-! ## The data of READ-TAMPER (R158, R204) -/

/-- The record that READ-TAMPER shows: an empty one in place of one that is not valid (R158). -/
def Monitor.shownRecord (m : Monitor) : TamperRecord := if m.record.valid then m.record else .reset

theorem Monitor.shownRecord_of_valid {m : Monitor} (h : m.record.valid = true) : m.shownRecord = m.record := if_pos h

theorem Monitor.shownRecord_of_not_valid {m : Monitor} (h : m.record.valid = false) : m.shownRecord = .reset := by
  rw [shownRecord, h]
  exact if_neg Bool.false_ne_true

theorem tamperData_eq (m : Monitor) :
    tamperData m = bytesOf 1 (bit m.shownRecord.valid) ++ bytesOf 1 ((m.shownRecord.first.map Cause.num).getD 255) ++
      bytesOf 4 m.shownRecord.time.toNat ++ bytesOf 3 m.shownRecord.causes.toNat ++
      bytesOf 1 m.shownRecord.further.toNat ++ bytesOf 3 m.testSet.toNat ++ bytesOf 4 m.seconds.toNat := rfl

@[simp] theorem length_tamperData (m : Monitor) : (tamperData m).length = 17 := by simp [tamperData_eq]

theorem Cause.num_le (c : Cause) : c.num ≤ 20 := by
  cases c <;> simp only [Cause.num] <;> omega

theorem causeCode_lt (x : Option Cause) : (x.map Cause.num).getD 255 < 256 := by
  cases x with
  | none => decide
  | some c =>
    have hnum := c.num_le
    simp only [Option.map_some, Option.getD_some]
    omega

theorem tamperData_record_fields (m : Monitor) :
    leAt (tamperData m) 0 1 = bit m.shownRecord.valid ∧
    leAt (tamperData m) 1 1 = (m.shownRecord.first.map Cause.num).getD 255 ∧
    leAt (tamperData m) 2 4 = m.shownRecord.time.toNat ∧ leAt (tamperData m) 6 3 = m.shownRecord.causes.toNat ∧
    leAt (tamperData m) 9 1 = m.shownRecord.further.toNat := by
  have hvalid := bit_le m.shownRecord.valid
  have hfirst := causeCode_lt m.shownRecord.first
  simp (disch := omega) only [tamperData_eq, List.append_assoc, leAt_bytesOf_append, leAt_bytesOf_append_of_le,
    Nat.mod_eq_of_lt, Nat.reduceSub, and_self]

theorem tamperData_watch_fields (m : Monitor) :
    leAt (tamperData m) 10 3 = m.testSet.toNat ∧ leAt (tamperData m) 13 4 = m.seconds.toNat := by
  simp (disch := omega) only [tamperData_eq, List.append_assoc, leAt_bytesOf_append, leAt_bytesOf,
    leAt_bytesOf_append_of_le, Nat.mod_eq_of_lt, Nat.reduceSub, and_self]

theorem tamperData_fields_of_not_valid {m : Monitor} (h : m.record.valid = false) :
    leAt (tamperData m) 0 1 = 0 ∧ leAt (tamperData m) 1 1 = 255 ∧ leAt (tamperData m) 2 4 = 0 ∧
    leAt (tamperData m) 6 3 = 0 ∧ leAt (tamperData m) 9 1 = 0 := by
  have hfields := tamperData_record_fields m
  rwa [Monitor.shownRecord_of_not_valid h] at hfields

theorem tamperData_fields_of_valid {m : Monitor} {cause : Cause} (h : m.record.valid = true)
    (hfirst : m.record.first = some cause) :
    leAt (tamperData m) 0 1 = 1 ∧ leAt (tamperData m) 1 1 = cause.num ∧ leAt (tamperData m) 2 4 = m.record.time.toNat ∧
    leAt (tamperData m) 6 3 = m.record.causes.toNat ∧ leAt (tamperData m) 9 1 = m.record.further.toNat := by
  have hfields := tamperData_record_fields m
  rwa [Monitor.shownRecord_of_valid h, h, hfirst] at hfields

/-! ## The monitor after ACK-TAMPER (R159) -/

/-- An ACK-TAMPER leaves everything but the channels, the meshes and the record, which it empties. -/
theorem Monitor.acknowledge_eq (m : Monitor) :
    m.acknowledge =
      { m with channels := m.acknowledge.channels, meshes := m.acknowledge.meshes, record := .reset } := rfl

@[simp] theorem Monitor.acknowledge_channels (m : Monitor) (i : Fin 8) :
    m.acknowledge.channels[i] = { m.channels[i] with count := 0 } := Vector.getElem_map _ i.isLt

@[simp] theorem Monitor.acknowledge_meshes (m : Monitor) (i : Fin 2) :
    m.acknowledge.meshes[i] = { m.meshes[i] with count := 0 } := Vector.getElem_map _ i.isLt

theorem ruleAckTamper_accepted {s : State} (h : s.cab.cabinet = .zeroed) :
    ruleAckTamper s = reply .accepted (s.onMon .acknowledge) := if_pos h

theorem ruleAckTamper_state {s : State} (h : s.cab.cabinet ≠ .zeroed) : ruleAckTamper s = reply .state s := if_neg h

/-! ## What each command answers -/

/-- A command whose rule answers data and changes the state, when it is sent with its argument count. -/
theorem takeFrame_of_replyData_changed {f : Frame} {n : Nat} {s u : State} {rule : State → Reply} {data : List Byte}
    (hsent : Sent f n s) (hrule : rule (acknowledge true s) = replyData data (acknowledge true u)) :
    takeFrame f n rule s = u.answer .accepted data := by
  obtain ⟨hlive, haddr, hlen⟩ := hsent
  have haddressed : addressed f.addr s = true := by simp [addressed, hlive, haddr]
  rw [takeFrame, if_pos haddressed, if_pos hlen, hrule]
  rfl

section Commands

variable {f : Frame} {s : State}

theorem transferCommand_ackTamper (f : Frame) : transferCommand f.addr (0x53#8 :: f.args) = some (.ackTamper f) := rfl

theorem exec_readTamper (hsent : Sent f 0 s) :
    exec (.readTamper f) s =
      .next ((s.onMon fun m => { m with testSet := 0#21 }).answer .accepted (tamperData s.mon)) := by
  have harm : exec (.readTamper f) s = execReadTamper f s := rfl
  rw [harm, execReadTamper]
  exact congrArg Host.Outcome.next (takeFrame_of_replyData_changed hsent rfl)

theorem exec_ackTamper_of_reply {u : State} {c : AnsCode} (hsent : Sent f 0 s)
    (hrule : ruleAckTamper (acknowledge true s) = reply c (acknowledge true u)) :
    exec (.ackTamper f) s = .next (u.answer c []) := by
  have harm : exec (.ackTamper f) s = execAckTamper f s := rfl
  rw [harm, execAckTamper, takeFrame_of_reply hsent hrule]

theorem exec_ackTamper_accepted (hsent : Sent f 0 s) (hcab : s.cab.cabinet = .zeroed) :
    exec (.ackTamper f) s = .next ((s.onMon .acknowledge).answer .accepted []) :=
  exec_ackTamper_of_reply hsent (ruleAckTamper_accepted (s := acknowledge true s) hcab)

theorem exec_ackTamper_state (hsent : Sent f 0 s) (hcab : s.cab.cabinet ≠ .zeroed) :
    exec (.ackTamper f) s = .next (s.answer .state []) :=
  exec_ackTamper_of_reply hsent (ruleAckTamper_state (s := acknowledge true s) hcab)

end Commands

/-! ## The obligation -/

/-- Settles O48: READ-TAMPER by the fields of its data, ACK-TAMPER by the cabinet state. -/
theorem tamperCommands : Obligations.TamperCommands := by
  unfold Obligations.TamperCommands
  intro f s hargs
  have hsent : Sent f 0 s := hargs.sent
  refine ⟨transferCommand_ackTamper f, ?readTamper, exec_ackTamper_state hsent, fun hzeroed => ?acknowledged⟩
  case readTamper =>
    obtain ⟨htest, hseconds⟩ := tamperData_watch_fields s.mon
    exact ⟨tamperData s.mon, exec_readTamper hsent, length_tamperData s.mon, htest, hseconds,
      tamperData_fields_of_not_valid, fun _ => tamperData_fields_of_valid⟩
  case acknowledged =>
    exact ⟨s.mon.acknowledge, exec_ackTamper_accepted hsent hzeroed, s.mon.acknowledge_eq,
      s.mon.acknowledge_channels, s.mon.acknowledge_meshes⟩

end Sys2Proof.Machine

/-! PROOFS. COMMISSION, RECOMMISSION, RESUME and CLEAR-MAP (R161, R171 to R176): the alarm condition, how the two
commissioning commands come to one judgement, what each acceptance leaves, and the obligation. -/

namespace Sys2Proof.Machine

/-! ## The alarm condition (R161) -/

theorem Channel.inside_eq_false_iff (code : Byte) (c : Channel) : c.inside code = false ↔ code < c.low ∨ c.high < code := by
  rw [inside, decide_eq_false_iff_not, not_and_or, BitVec.not_le, BitVec.not_le]

theorem Channel.alarming_iff (c : Channel) :
    c.alarming = true ↔ c.enable = true ∧ ∀ code, c.last = some code → code < c.low ∨ c.high < code := by
  rw [alarming, Bool.and_eq_true]
  cases c.last with
  | none => simp
  | some code => simp [inside_eq_false_iff]

theorem Monitor.alarmCondition_iff (m : Monitor) : m.alarmCondition = true ↔ AlarmCondition m := by
  simp only [alarmCondition, AlarmCondition, any_toList_iff, Bool.or_eq_true, List.any_eq_true, List.mem_finRange, true_and,
    Channel.alarming_iff, Bool.and_eq_true, bne_iff_ne, or_assoc]

/-! ## The state that each acceptance leaves (R172, R173, R175, R176) -/

/-- The domain seeds at the start of a commissioning: a fresh one of domain 0, and no other (R172). -/
def commissionedSeeds (s : State) : Vector (Option Seed) 64 :=
  (Vector.replicate 64 none).set 0 (some (Config.freshSeed (s.seeds.made + 1)))

theorem commissionedSeeds_zero (s : State) :
    (commissionedSeeds s)[(0 : Fin 64)] = some (Config.freshSeed (s.seeds.made + 1)) :=
  Vector.getElem_set_self _

theorem commissionedSeeds_of_ne_zero {d : Fin 64} (hne : d ≠ 0) (s : State) : (commissionedSeeds s)[d] = none := by
  have hval : 0 ≠ d.val := fun heq => hne (Fin.ext heq.symm)
  simp [commissionedSeeds, hval]

/-- The state that CLEAR-MAP leaves when it is accepted (R176). -/
def clearMapAgain (s : State) : State := beginClear (s.onEntry fun u => { u with list := [] })

/-- The state that RESUME leaves when it is accepted (R175). -/
def resumeCabinet (s : State) : State := (s.onCab fun c => { c with cabinet := .ready }).onEntry (.request .deferred)

theorem EntryUnit.request_eq (o : EntryOp) (u : EntryUnit) :
    u.request o = { u with waiting := if o ∈ u.waiting then u.waiting else u.waiting ++ [o] } := by
  unfold request
  by_cases hmem : o ∈ u.waiting <;> simp [hmem]

theorem resumeCabinet_eq (s : State) :
    resumeCabinet s = { s with
      cab := { s.cab with cabinet := .ready }
      entry := { s.entry with waiting := if EntryOp.deferred ∈ s.entry.waiting then s.entry.waiting
                                         else s.entry.waiting ++ [EntryOp.deferred] } } := by
  rw [resumeCabinet, State.onEntry, EntryUnit.request_eq]
  rfl

/-! ## The judgements (R171, R175, R176) -/

section Judgements

variable {s : State}

/-- Steps 4 to 6 of R171, which COMMISSION and RECOMMISSION share: the switches, the alarm condition, the acceptance. -/
def judgeCommissioning (s : State) : Reply :=
  if bothOn s = false then reply .state s
  else if s.mon.alarmCondition then reply .state s
  else reply .accepted (commissionCabinet s)

theorem ruleCommission_of_blank (h : s.cab.cabinet = .blank) : ruleCommission s = judgeCommissioning s :=
  if_neg (not_not_intro h)

theorem ruleCommission_state (h : s.cab.cabinet ≠ .blank) : ruleCommission s = reply .state s := if_pos h

theorem ruleRecommission_of_quiet (hcab : s.cab.cabinet = .zeroed) (hsub : s.cab.sub = .quiet)
    (hrecord : s.mon.record.valid = false) : ruleRecommission s = judgeCommissioning s := by
  have hsub' : s.cab.sub ≠ .scrubbing := by simp [hsub]
  rw [ruleRecommission, if_neg (not_not_intro hcab), if_neg hsub', if_neg (Bool.eq_false_iff.mp hrecord),
    judgeCommissioning]

theorem ruleRecommission_state (h : s.cab.cabinet ≠ .zeroed) : ruleRecommission s = reply .state s := if_pos h

theorem ruleRecommission_busy (hcab : s.cab.cabinet = .zeroed) (hsub : s.cab.sub = .scrubbing) :
    ruleRecommission s = reply .busy s := by
  rw [ruleRecommission, if_neg (not_not_intro hcab), if_pos hsub]

theorem ruleRecommission_state_of_record (hcab : s.cab.cabinet = .zeroed) (hsub : s.cab.sub = .quiet)
    (hrecord : s.mon.record.valid = true) : ruleRecommission s = reply .state s := by
  have hsub' : s.cab.sub ≠ .scrubbing := by simp [hsub]
  rw [ruleRecommission, if_neg (not_not_intro hcab), if_neg hsub', if_pos hrecord]

theorem bothOn_eq_false_iff : bothOn s = false ↔ s.entry.switchA.on = false ∨ s.entry.switchB.on = false :=
  Bool.and_eq_false_iff

theorem judgeCommissioning_state_of_switch (h : s.entry.switchA.on = false ∨ s.entry.switchB.on = false) :
    judgeCommissioning s = reply .state s :=
  if_pos (bothOn_eq_false_iff.mpr h)

theorem judgeCommissioning_state_of_alarm (h : AlarmCondition s.mon) : judgeCommissioning s = reply .state s := by
  rw [judgeCommissioning, if_pos (s.mon.alarmCondition_iff.mpr h), ite_self]

theorem judgeCommissioning_accepted (ha : s.entry.switchA.on = true) (hb : s.entry.switchB.on = true)
    (halarm : ¬AlarmCondition s.mon) : judgeCommissioning s = reply .accepted (commissionCabinet s) := by
  have hboth : ¬bothOn s = false := by simp [bothOn, ha, hb]
  have hcalm : ¬s.mon.alarmCondition = true := mt s.mon.alarmCondition_iff.mp halarm
  rw [judgeCommissioning, if_neg hboth, if_neg hcalm]

theorem ruleResume_accepted (h : s.cab.cabinet = .restore) : ruleResume s = reply .accepted (resumeCabinet s) := if_pos h

theorem ruleResume_state (h : s.cab.cabinet ≠ .restore) : ruleResume s = reply .state s := if_neg h

theorem ruleClearMap_accepted (h : s.cab.cabinet = .restore) : ruleClearMap s = reply .accepted (clearMapAgain s) := if_pos h

theorem ruleClearMap_state (h : s.cab.cabinet ≠ .restore) : ruleClearMap s = reply .state s := if_neg h

end Judgements

/-! ## What each command answers -/

/-- The command is a COMMISSION in BLANK, or a RECOMMISSION in ZEROED QUIET with no valid record: R171 comes to its
step 4. -/
def Commissions (f : Frame) (c : Instr) (s : State) : Prop :=
  c = .commission f ∧ s.cab.cabinet = .blank ∨
    c = .recommission f ∧ s.cab.cabinet = .zeroed ∧ s.cab.sub = .quiet ∧ s.mon.record.valid = false

section Commands

variable {f : Frame} {s u : State} {c : Instr} {a : AnsCode}

theorem transferCommand_clearMap (f : Frame) : transferCommand f.addr (0x13#8 :: f.args) = some (.clearMap f) := rfl

theorem exec_commission_of_reply (hsent : Sent f 0 s)
    (hrule : ruleCommission (acknowledge true s) = reply a (acknowledge true u)) :
    exec (.commission f) s = .next (u.answer a []) := by
  have harm : exec (.commission f) s = execCommission f s := rfl
  rw [harm, execCommission, takeFrame_of_reply hsent hrule]

theorem exec_recommission_of_reply (hsent : Sent f 0 s)
    (hrule : ruleRecommission (acknowledge true s) = reply a (acknowledge true u)) :
    exec (.recommission f) s = .next (u.answer a []) := by
  have harm : exec (.recommission f) s = execRecommission f s := rfl
  rw [harm, execRecommission, takeFrame_of_reply hsent hrule]

theorem exec_resume_of_reply (hsent : Sent f 0 s)
    (hrule : ruleResume (acknowledge true s) = reply a (acknowledge true u)) :
    exec (.resume f) s = .next (u.answer a []) := by
  have harm : exec (.resume f) s = execResume f s := rfl
  rw [harm, execResume, takeFrame_of_reply hsent hrule]

theorem exec_clearMap_of_reply (hsent : Sent f 0 s)
    (hrule : ruleClearMap (acknowledge true s) = reply a (acknowledge true u)) :
    exec (.clearMap f) s = .next (u.answer a []) := by
  have harm : exec (.clearMap f) s = execClearMap f s := rfl
  rw [harm, execClearMap, takeFrame_of_reply hsent hrule]

/-- Either commissioning command is answered by the judgement they share. -/
theorem exec_of_commissions (hsent : Sent f 0 s) (hc : Commissions f c s)
    (hjudge : judgeCommissioning (acknowledge true s) = reply a (acknowledge true u)) :
    exec c s = .next (u.answer a []) := by
  obtain ⟨rfl, hblank⟩ | ⟨rfl, hzeroed, hquiet, hrecord⟩ := hc
  · exact exec_commission_of_reply hsent ((ruleCommission_of_blank (s := acknowledge true s) hblank).trans hjudge)
  · exact exec_recommission_of_reply hsent
      ((ruleRecommission_of_quiet (s := acknowledge true s) hzeroed hquiet hrecord).trans hjudge)

theorem exec_resume_accepted (hsent : Sent f 0 s) (hcab : s.cab.cabinet = .restore) :
    exec (.resume f) s = .next ((resumeCabinet s).answer .accepted []) :=
  exec_resume_of_reply hsent (ruleResume_accepted hcab)

theorem exec_clearMap_accepted (hsent : Sent f 0 s) (hcab : s.cab.cabinet = .restore) :
    exec (.clearMap f) s = .next ((clearMapAgain s).answer .accepted []) :=
  exec_clearMap_of_reply hsent (ruleClearMap_accepted hcab)

end Commands

/-! ## The obligation -/

/-- Settles O49: the commissioning commands by the judgement they share and the seeds it leaves; their earlier refusals,
RESUME and CLEAR-MAP by their rules. -/
theorem cabinetCommands : Obligations.CabinetCommands := by
  unfold Obligations.CabinetCommands
  intro f s hargs
  have hsent : Sent f 0 s := hargs.sent
  refine ⟨transferCommand_clearMap f, fun c hc => ?commissioning, fun hcab => ?notBlank, fun hcab => ?notZeroed,
    fun hcab hsub => ?scrubbing, fun hcab hsub hrecord => ?record, fun hcab => ?restore, fun hcab => ?notRestore⟩
  case commissioning =>
    refine ⟨fun _ _ halarm => ?alarm, fun hoff => ?switchOff, fun ha hb hcalm => ?accepted⟩
    case alarm => exact exec_of_commissions hsent hc (judgeCommissioning_state_of_alarm halarm)
    case switchOff => exact exec_of_commissions hsent hc (judgeCommissioning_state_of_switch hoff)
    case accepted =>
      exact ⟨Config.freshSeed s.seeds.made, Config.freshSeed (s.seeds.made + 1), commissionedSeeds s,
        exec_of_commissions hsent hc (judgeCommissioning_accepted ha hb hcalm),
        commissionedSeeds_zero s, fun d hd => commissionedSeeds_of_ne_zero hd s⟩
  case notBlank => exact exec_commission_of_reply hsent (ruleCommission_state hcab)
  case notZeroed => exact exec_recommission_of_reply hsent (ruleRecommission_state hcab)
  case scrubbing => exact exec_recommission_of_reply hsent (ruleRecommission_busy hcab hsub)
  case record => exact exec_recommission_of_reply hsent (ruleRecommission_state_of_record hcab hsub hrecord)
  case restore =>
    rw [← resumeCabinet_eq]
    exact ⟨exec_resume_accepted hsent hcab, exec_clearMap_accepted hsent hcab⟩
  case notRestore =>
    exact ⟨exec_resume_of_reply hsent (ruleResume_state hcab),
      exec_clearMap_of_reply hsent (ruleClearMap_state hcab)⟩

end Sys2Proof.Machine

/-! PROOFS. A read transfer (R196): whom the link acknowledges, the bytes an answer gives, what the transfer leaves of the
answer slot, and the obligation. -/

namespace Sys2Proof.Machine

/-! ## The bytes of an answer (R196) -/

theorem length_answerBytes (c : AnsCode) (data : List Byte) (count : Nat) : (answerBytes c data count).length = count := by
  have hle : count ≤ (c.byte :: data ++ List.replicate count 0#8).length := by simp; omega
  rw [answerBytes, List.length_take, Nat.min_eq_left hle]

/-- Data followed by zero bytes reads as the data with 0x00 past its end. -/
theorem getElem?_append_replicate_zero {data : List Byte} {i count : Nat} (hi : i < count) :
    (data ++ List.replicate count 0#8)[i]? = some (data.getD i 0#8) := by
  rw [List.getD_eq_getElem?_getD]
  by_cases hdata : i < data.length
  · rw [List.getElem?_append_left hdata, List.getElem?_eq_getElem hdata, Option.getD_some]
  · have hle : data.length ≤ i := by omega
    have hpad : i - data.length < count := by omega
    rw [List.getElem?_append_right hle, List.getElem?_replicate_of_lt hpad, List.getElem?_eq_none hle, Option.getD_none]

theorem getElem?_answerBytes (c : AnsCode) (data : List Byte) {i count : Nat} (hi : i < count) :
    (answerBytes c data count)[i]? = some (if i = 0 then c.byte else data.getD (i - 1) 0#8) := by
  rw [answerBytes, List.getElem?_take_of_lt hi, List.cons_append]
  cases i with
  | zero => rfl
  | succ k =>
    have hk : k < count := by omega
    rw [List.getElem?_cons_succ, getElem?_append_replicate_zero hk]
    rfl

/-! ## The transfer -/

section Transfer

variable {addr : BitVec 7} {s : State}

theorem addressed_eq_true_iff : addressed addr s = true ↔ live s = true ∧ addr = linkAddress s := by
  simp [addressed]

theorem addressed_eq_false_iff : addressed addr s = false ↔ live s = false ∨ addr ≠ linkAddress s := by
  rw [← Bool.not_eq_true, addressed_eq_true_iff, not_and_or, Bool.not_eq_true]

/-- A read transfer, acknowledged or not, changes nothing but the link, and of the link not its strap. -/
theorem readAnswer_frame (addr : BitVec 7) (count : Nat) (s : State) :
    readAnswer addr count s = { s with link := (readAnswer addr count s).link } ∧
      (readAnswer addr count s).link.strap = s.link.strap := by
  unfold readAnswer
  split
  case isTrue => split <;> exact ⟨rfl, rfl⟩
  case isFalse => exact ⟨rfl, rfl⟩

/-- Without the link's acknowledge no byte is sent and the slot keeps what it holds. -/
theorem readAnswer_of_unacknowledged (count : Nat) (h : addressed addr s = false ∨ s.link.slot = .waiting) :
    readAnswer addr count s = s.onLink fun l => { l with acked := false, sent := [] } := by
  unfold readAnswer
  split
  case isTrue haddressed =>
    have hwaiting : s.link.slot = .waiting := h.resolve_left (by simp [haddressed])
    rw [hwaiting]
  case isFalse => rfl

/-- The answer a read transfer finds in the slot: the one that is READY, or NONE without data in an EMPTY slot. -/
def Offers (slot : AnswerSlot) (code : AnsCode) (data : List Byte) : Prop :=
  slot = .ready code data ∨ slot = .empty ∧ code = .none ∧ data = []

/-- A transfer that reads the answer byte is sent the answer, and leaves the slot EMPTY. -/
theorem readAnswer_of_offers {count : Nat} {code : AnsCode} {data : List Byte} (haddressed : addressed addr s = true)
    (hoffers : Offers s.link.slot code data) (hcount : 1 ≤ count) :
    readAnswer addr count s =
      s.onLink fun l => { l with acked := true, sent := answerBytes code data count, slot := .empty } := by
  have hne : count ≠ 0 := by omega
  rw [readAnswer, if_pos haddressed]
  obtain hready | ⟨hempty, rfl, rfl⟩ := hoffers
  · simp [hready, hne]
  · simp [hempty, State.onLink]

end Transfer

/-! ## The obligation -/

/-- Settles O45: the frame, the transfer without an acknowledge, and the transfer that reads the answer byte. -/
theorem answerRead : Obligations.AnswerRead := by
  unfold Obligations.AnswerRead
  intro addr count s
  have harm : exec (.answerRead addr count) s = .next (readAnswer addr count s) := rfl
  obtain ⟨hlink, hstrap⟩ := readAnswer_frame addr count s
  refine ⟨readAnswer addr count s, harm, hlink, hstrap, fun hunacked => ?unacknowledged,
    fun hlive haddr code data hoffers hcount => ?served⟩
  case unacknowledged =>
    have hcases : addressed addr s = false ∨ s.link.slot = .waiting := by
      rwa [addressed_eq_false_iff, or_assoc]
    rw [readAnswer_of_unacknowledged count hcases]
    exact ⟨rfl, rfl, rfl⟩
  case served =>
    rw [readAnswer_of_offers (addressed_eq_true_iff.mpr ⟨hlive, haddr⟩) hoffers hcount]
    exact ⟨rfl, rfl, length_answerBytes code data count, fun i => getElem?_answerBytes code data⟩

end Sys2Proof.Machine

/-! PROOFS. Steps: the command at the front of the queue, and which rows leave keys, domain records, the State Unit and back
memory as they were, so that the laws about them are asked of the other rows alone (MemoryLawKept, KeyLawsKept). -/

namespace Sys2Proof.Machine

/-! ## One step -/

/-- Settles O1: the queue is first in, first out by the definition of a step. -/
theorem stepTakesFront : Obligations.StepTakesFront := by
  unfold Obligations.StepTakesFront
  intro s c rest hpending
  simp [step, hpending]

/-- A law that neither the queue nor what is to arrive can break is kept by every step if every row keeps it, and so does what
an empty queue lets happen. -/
theorem stepsTo_keeps {P : State → Prop} (hqueue : ∀ s q, P s → P { s with pending := q })
    (hexec : ∀ c s t, P s → exec c s = .next t → P t) (hidle : ∀ s, P s → P (idle s)) {s t : State} (h : P s)
    (hstep : StepsTo s t) : P t := by
  unfold StepsTo step at hstep
  split at hstep
  · injection hstep with hstep
    exact hstep ▸ hidle s h
  · exact hexec _ _ _ (hqueue s _ h) hstep

/-! ## What an empty queue leaves as it was -/

/-- What no clock edge and no transfer changes: of the Back Controller the clock and the ranks' timers alone move on, of the
Entry Unit the sampled switches. -/
structure Ticks (s t : State) : Prop where
  front : t.front = s.front
  xlat : t.xlat = s.xlat
  maps : t.maps = s.maps
  doms : t.doms = s.doms
  seeds : t.seeds = s.seeds
  cab : t.cab = s.cab
  ev : t.ev = s.ev
  mem : t.mem = s.mem
  entry : ∃ a b, t.entry = { s.entry with switchA := a, switchB := b }
  back : ∃ clock ranks, t.back = { s.back with clock := clock, ranks := ranks }

/-- Clock edges and transfers change nothing but what `Ticks` lets move. -/
theorem idle_ticks (s : State) : Ticks s (idle s) := by
  have still : ∀ t : State, t.front = s.front → t.xlat = s.xlat → t.maps = s.maps → t.doms = s.doms → t.seeds = s.seeds →
      t.cab = s.cab → t.ev = s.ev → t.mem = s.mem → t.entry = s.entry → t.back = s.back → Ticks s t :=
    fun t h1 h2 h3 h4 h5 h6 h7 h8 h9 h10 => ⟨h1, h2, h3, h4, h5, h6, h7, h8, ⟨_, _, h9⟩, ⟨_, _, h10⟩⟩
  unfold idle
  split
  · exact still _ rfl rfl rfl rfl rfl rfl rfl rfl rfl rfl
  · unfold backEdge
    split
    · exact ⟨rfl, rfl, rfl, rfl, rfl, rfl, rfl, rfl, ⟨_, _, rfl⟩, ⟨_, _, rfl⟩⟩
    · exact still _ rfl rfl rfl rfl rfl rfl rfl rfl rfl rfl
  · unfold meshEdge
    dsimp only
    split
    · exact ⟨rfl, rfl, rfl, rfl, rfl, rfl, rfl, rfl, ⟨_, _, rfl⟩, ⟨_, _, rfl⟩⟩
    · exact still _ rfl rfl rfl rfl rfl rfl rfl rfl rfl rfl
  · unfold takeTransfer
    split
    · exact still _ rfl rfl rfl rfl rfl rfl rfl rfl rfl rfl
    · exact still _ rfl rfl rfl rfl rfl rfl rfl rfl rfl rfl

/-! ## Commands of the link -/

/-- A command keeps what its rule keeps, where an answer and an acknowledge cannot break it. -/
theorem takeFrame_keeps {P : State → Prop} {f : Frame} {n : Nat} {rule : State → Reply} {s : State}
    (hlink : ∀ s g, P s → P (s.onLink g)) (hrule : ∀ s, live s = true → P s → P (rule s).2) (h : P s) :
    P (takeFrame f n rule s) := by
  unfold takeFrame putAnswer
  split
  · next haddressed =>
    have hlive : live (acknowledge true s) = true := by
      simp only [addressed, Bool.and_eq_true] at haddressed
      exact haddressed.1
    refine hlink _ _ ?_
    split
    · exact hrule _ hlive (hlink _ _ h)
    · exact (hlink _ _ h : P (acknowledge true s))
  · exact hlink _ _ h

/-- A CONFIGURE keeps what its item's rule keeps in the cabinet states of that item. -/
theorem configure_keeps {P : State → Prop} {f : Frame} {item maxIndex : Nat} {taken : State → Bool}
    {rule : Nat → State → Reply} {s : State} (hlink : ∀ s g, P s → P (s.onLink g))
    (hrule : ∀ i s, live s = true → taken s = true → P s → P (rule i s).2) (h : P s) : P (configure f item maxIndex taken rule s) := by
  unfold configure
  dsimp only
  split
  · exact h
  · refine takeFrame_keeps hlink (fun s hlive hs => ?_) h
    split
    · exact hs
    · split
      · exact hs
      · split
        · exact hs
        · next htaken => exact hrule _ s hlive (by simpa using htaken) hs

/-! ## Rows that leave keys, domains, the State Unit and memory as they were -/

/-- Keys, domain records, the State Unit and back memory are as they were. -/
structure Still (s t : State) : Prop where
  doms : t.doms = s.doms
  seeds : t.seeds = s.seeds
  cab : t.cab = s.cab
  mem : t.mem = s.mem

namespace Still

theorem refl (s : State) : Still s s := ⟨rfl, rfl, rfl, rfl⟩

theorem ite {s t u : State} {c : Prop} [Decidable c] (h : Still s t) (k : Still s u) : Still s (if c then t else u) := by
  split
  · exact h
  · exact k

theorem of_traffic {s t : State} (h : Traffic s t) : Still s t := ⟨h.doms, h.seeds, h.cab, h.mem⟩

theorem onLink (s t : State) (g : SupLink → SupLink) (h : Still s t) : Still s (t.onLink g) := ⟨h.doms, h.seeds, h.cab, h.mem⟩

theorem onBack (s : State) (g : BackCtl → BackCtl) : Still s (s.onBack g) := ⟨rfl, rfl, rfl, rfl⟩

theorem onMon (s : State) (g : Monitor → Monitor) : Still s (s.onMon g) := ⟨rfl, rfl, rfl, rfl⟩

theorem onEntry (s : State) (g : EntryUnit → EntryUnit) : Still s (s.onEntry g) := ⟨rfl, rfl, rfl, rfl⟩

/-- A command whose rule leaves these as they were does so too. -/
theorem takeFrame {f : Frame} {n : Nat} {rule : State → Reply} (s : State) (hrule : ∀ s, Still s (rule s).2) :
    Still s (Machine.takeFrame f n rule s) :=
  takeFrame_keeps (P := Still s) (onLink s) (fun u _ hu => ⟨(hrule u).doms.trans hu.doms, (hrule u).seeds.trans hu.seeds,
    (hrule u).cab.trans hu.cab, (hrule u).mem.trans hu.mem⟩) (refl s)

theorem configure {f : Frame} {item maxIndex : Nat} {taken : State → Bool} {rule : Nat → State → Reply} (s : State)
    (hrule : ∀ i s, Still s (rule i s).2) : Still s (Machine.configure f item maxIndex taken rule s) :=
  configure_keeps (P := Still s) (onLink s) (fun i u _ _ hu => ⟨(hrule i u).doms.trans hu.doms,
    (hrule i u).seeds.trans hu.seeds, (hrule i u).cab.trans hu.cab, (hrule i u).mem.trans hu.mem⟩) (refl s)

end Still

/-- The rows that may change a key, a domain record, the State Unit or back memory, but for what a run pulse has ended and
they take first. -/
def touchesVault : Instr → Bool
  | .runPulse | .leaseExpiry _ | .writeCompletion | .channelDetection _ | .meshDetection _ | .lidRegistered _
  | .panelRegistered _ | .backgroundLineOffer | .scrubDone | .clearDone | .mainsLoss | .mainsReturn _ | .rstAsserted
  | .rstEnd _ | .firstBatteryConnection _ _ | .commission _ | .recommission _ | .resume _ | .clearMap _ | .zeroise _
  | .enrol _ | .erase _ | .openRun _ | .extendRun _ | .closeRun _ | .configurePab _ | .configureScrubSetting _ => true
  | _ => false

section Rows

variable (s : State)

theorem readAnswer_still (addr : BitVec 7) (count : Nat) : Still s (readAnswer addr count s) := by
  unfold readAnswer
  split
  · split <;> exact .onLink s s _ (.refl s)
  · exact .onLink s s _ (.refl s)

theorem takeUnknown_still (code : Byte) (f : Frame) : Still s (takeUnknown code f s) :=
  .ite (.refl s) (.takeFrame s fun u => .refl u)

theorem selectNext_still : Still s (selectNext s) := by
  unfold selectNext
  split
  · exact .ite (.onBack s _) (.refl s)
  · exact .refl s

theorem issueActivation_still (t : Nat) : Still s (issueActivation t s) := by
  unfold issueActivation
  split
  · exact .onBack s _
  · exact .refl s

theorem issuePrecharge_still (t : Nat) : Still s (issuePrecharge t s) := by
  unfold issuePrecharge
  split
  · exact .onBack s _
  · exact .refl s

theorem issueColumn_still (t : Nat) : Still s (issueColumn t s) := by
  unfold issueColumn
  split
  · split
    · exact .onBack s _
    · exact .refl s
  · exact .refl s

theorem issueRefresh_still (t : Nat) : Still s (issueRefresh t s) := by
  unfold issueRefresh
  split
  · exact .onBack s _
  · exact .refl s

theorem finishStartUp_still : Still s (finishStartUp s) := by
  unfold finishStartUp
  split
  · exact .ite (.onBack s _) (.refl s)
  · exact .refl s

theorem lapse_still (x : Custodian) : Still s (lapse x s) := .ite (.onEntry s _) (.refl s)

theorem switchOn_still (x : Custodian) : Still s (switchOn x s) := .ite (.refl s) (.onEntry s _)

theorem switchOff_still (x : Custodian) : Still s (switchOff x s) := .ite (.onEntry s _) (.refl s)

theorem ruleSetEntry_still (args : List Byte) : Still s (ruleSetEntry args s).2 := by
  unfold ruleSetEntry
  split
  · exact .refl s
  · split
    · exact .refl s
    · split
      · exact .refl s
      · split
        · exact .refl s
        · split
          · exact .refl s
          · exact ⟨rfl, rfl, rfl, rfl⟩

theorem ruleAbandonEntry_still : Still s (ruleAbandonEntry s).2 := by
  unfold ruleAbandonEntry reply
  split
  · exact .onEntry s _
  · exact .refl s

theorem ruleReadEntry_still (args : List Byte) : Still s (ruleReadEntry args s).2 := by
  unfold ruleReadEntry reply replyData
  dsimp only
  split
  · exact .refl s
  · split <;> exact .refl s

theorem ruleReadDomain_still (args : List Byte) : Still s (ruleReadDomain args s).2 := by
  unfold ruleReadDomain reply replyData
  split <;> exact .refl s

theorem requestLock_still (d : DomId) (f : Fpn) : Still s (requestLock d f s).2 := by
  unfold requestLock
  split
  · exact .of_traffic (onXlat_traffic s _ : Traffic s (joinLock d f s))
  · split
    · exact .of_traffic (startWalk_traffic s _ _ _ _)
    · exact .refl s

theorem ruleLock_still (args : List Byte) : Still s (ruleLock args s).2 := by
  have accepted : ∀ g, Still s (reply .accepted (s.onXlat g)).2 := fun g => .of_traffic (onXlat_traffic s g)
  unfold ruleLock
  split
  · exact .refl s
  · unfold lockPair
    split
    · exact .refl s
    · split
      · exact .refl s
      · split
        · split
          · exact .refl s
          · exact accepted _
        · split
          · exact .refl s
          · split
            · split
              · exact accepted _
              · exact .refl s
            · exact requestLock_still s _ _

theorem ruleUnlock_still (args : List Byte) : Still s (ruleUnlock args s).2 := by
  unfold ruleUnlock reply
  split
  · exact .refl s
  · split
    · exact .of_traffic (onXlat_traffic s _)
    · exact .refl s

theorem ruleDemapPage_still (args : List Byte) : Still s (ruleDemapPage args s).2 := by
  unfold ruleDemapPage reply
  split
  · exact .refl s
  · exact .of_traffic (pageDemap_traffic s _ _)

theorem ruleDemapDomain_still (args : List Byte) : Still s (ruleDemapDomain args s).2 := by
  unfold ruleDemapDomain reply
  split
  · exact .refl s
  · exact .of_traffic (domainDemap_traffic s _)

theorem ruleAckTamper_still : Still s (ruleAckTamper s).2 := by
  unfold ruleAckTamper reply
  split
  · exact .onMon s _
  · exact .refl s

theorem ruleConfigureChannel_still (args : List Byte) (i : Nat) : Still s (ruleConfigureChannel args i s).2 := by
  unfold ruleConfigureChannel reply
  split
  · exact .refl s
  · exact .onMon s _

theorem ruleConfigureMesh_still (args : List Byte) (i : Nat) : Still s (ruleConfigureMesh args i s).2 := by
  unfold ruleConfigureMesh reply
  split
  · exact .refl s
  · exact .onMon s _

theorem ruleConfigureMode_still (args : List Byte) (i : Nat) : Still s (ruleConfigureMode args i s).2 := by
  unfold ruleConfigureMode reply
  split
  · split
    · exact .refl s
    · exact .onMon s _
  · split
    · exact .onMon s _
    · exact .refl s
  · exact .refl s

end Rows

/-- A row that does not touch them leaves keys, domains, the State Unit and memory as they were, or as the ends of the last
run pulse have them. -/
theorem exec_still {c : Instr} (s : State) (hc : touchesVault c = false) :
    ∃ t, exec c s = .next t ∧ (Still s t ∨ Still (afterPulse s) t) := by
  let p := afterPulse s
  cases c
  -- front port, buffers and map
  case frontTransaction t => exact ⟨_, rfl, .inr (.of_traffic (presentTxn_traffic p t))⟩
  case heldTransactionAccepted => exact ⟨_, rfl, .inr (.of_traffic (acceptHeld_traffic p))⟩
  case followingStart tag => exact ⟨_, rfl, .inr (.of_traffic (startFollowing_traffic p tag))⟩
  case responseDelivery tag => exact ⟨_, rfl, .inr (.of_traffic (deliver_traffic p tag))⟩
  case backQueueEntry => exact ⟨_, rfl, .inl (.of_traffic (queueEntry_traffic s))⟩
  case walkCompletion => exact ⟨_, rfl, .inr (.of_traffic (completeWalk_traffic p))⟩
  case waitingLookupRepeat => exact ⟨_, rfl, .inr (.of_traffic (repeatFirst_traffic p))⟩
  case mapReadResume tag => exact ⟨_, rfl, .inl (.of_traffic (resumeMapRead_traffic s tag))⟩
  case updateTaken pick => exact ⟨_, rfl, .inl (.of_traffic (takePicked_traffic s pick))⟩
  case updateLineReadArrival => exact ⟨_, rfl, .inl (.of_traffic (arriveUpdate_traffic s))⟩
  case updateLineWrite k => exact ⟨_, rfl, .inl (.of_traffic (writeUpdate_traffic s k))⟩
  case mergeRelease k => exact ⟨_, rfl, .inl (.of_traffic (releaseMerge_traffic s k))⟩
  case fillLineWrite => exact ⟨_, rfl, .inl (.of_traffic (writeFill_traffic s))⟩
  -- windows and key entry
  case windowLapse x => exact ⟨_, rfl, .inl (lapse_still s x)⟩
  case registeredSwitchOn x => exact ⟨_, rfl, .inr (switchOn_still p x)⟩
  case registeredSwitchOff x => exact ⟨_, rfl, .inr (switchOff_still p x)⟩
  case componentWrite => exact ⟨_, rfl, .inr (.of_traffic (nextComponent_traffic p))⟩
  case combiningReadBurst => exact ⟨_, rfl, .inl (.of_traffic (arriveCombine_traffic s))⟩
  case finalisation => exact ⟨_, rfl, .inr (.of_traffic (nextFinalisation_traffic p))⟩
  case liveZeroFillComplete => exact ⟨_, rfl, .inl (.of_traffic (completeLiveFill_traffic s))⟩
  case deferredFinalisation => exact ⟨_, rfl, .inr (.of_traffic (nextDeferred_traffic p))⟩
  case abandonment => exact ⟨_, rfl, .inr (.of_traffic (nextAbandonment_traffic p))⟩
  -- the Back Controller
  case selection => exact ⟨_, rfl, .inl (selectNext_still s)⟩
  case activation t => exact ⟨_, rfl, .inl (issueActivation_still s t)⟩
  case precharge t => exact ⟨_, rfl, .inl (issuePrecharge_still s t)⟩
  case automaticPrecharge r i => exact ⟨_, rfl, .inl (.ite (.onBack s _) (.refl s))⟩
  case columnCommand t => exact ⟨_, rfl, .inl (issueColumn_still s t)⟩
  case readBurst => exact ⟨_, rfl, .inr (.of_traffic (finishRead_traffic p))⟩
  case refreshAccrual r => exact ⟨_, rfl, .inl (.ite (.onBack s _) (.refl s))⟩
  case refresh t => exact ⟨_, rfl, .inl (issueRefresh_still s t)⟩
  case refreshEnd r => exact ⟨_, rfl, .inl (.ite (.onBack s _) (.refl s))⟩
  case startUpEnd => exact ⟨_, rfl, .inl (finishStartUp_still s)⟩
  -- the Tamper Monitor
  case conversion | meshCrossing | meshMiss | monitorSecond | meshDrivePhase => exact ⟨_, rfl, .inl (.onMon s _)⟩
  -- the link
  case answerRead addr n => exact ⟨_, rfl, .inl (readAnswer_still s addr n)⟩
  case unknown code f => exact ⟨_, rfl, .inl (takeUnknown_still s code f)⟩
  case status f => exact ⟨_, rfl, .inr (.takeFrame p fun u => .refl u)⟩
  case readDomain f => exact ⟨_, rfl, .inr (.takeFrame p fun u => ruleReadDomain_still u _)⟩
  case readExpired f => exact ⟨_, rfl, .inr (.takeFrame p fun u => .refl u)⟩
  case clearExpired f => exact ⟨_, rfl, .inr (.takeFrame p fun _ => ⟨rfl, rfl, rfl, rfl⟩)⟩
  case setEntry f => exact ⟨_, rfl, .inr (.takeFrame p fun u => ruleSetEntry_still u _)⟩
  case abandonEntry f => exact ⟨_, rfl, .inr (.takeFrame p fun u => ruleAbandonEntry_still u)⟩
  case readEntry f => exact ⟨_, rfl, .inr (.takeFrame p fun u => ruleReadEntry_still u _)⟩
  case lock f => exact ⟨_, rfl, .inr (.takeFrame p fun u => ruleLock_still u _)⟩
  case unlock f => exact ⟨_, rfl, .inr (.takeFrame p fun u => ruleUnlock_still u _)⟩
  case demapPage f => exact ⟨_, rfl, .inl (.takeFrame s fun u => ruleDemapPage_still u _)⟩
  case demapDomain f => exact ⟨_, rfl, .inl (.takeFrame s fun u => ruleDemapDomain_still u _)⟩
  case demapAll f => exact ⟨_, rfl, .inl (.takeFrame s fun u => .of_traffic (allDemap_traffic u))⟩
  case readRefusal f => exact ⟨_, rfl, .inl (.takeFrame s fun u => .refl u)⟩
  case clearRefusal f => exact ⟨_, rfl, .inl (.takeFrame s fun _ => ⟨rfl, rfl, rfl, rfl⟩)⟩
  case readTamper f => exact ⟨_, rfl, .inl (.takeFrame s fun _ => ⟨rfl, rfl, rfl, rfl⟩)⟩
  case ackTamper f => exact ⟨_, rfl, .inl (.takeFrame s fun u => ruleAckTamper_still u)⟩
  case readResults f => exact ⟨_, rfl, .inl (.takeFrame s fun u => .refl u)⟩
  case clearEvents f => exact ⟨_, rfl, .inr (.takeFrame p fun _ => ⟨rfl, rfl, rfl, rfl⟩)⟩
  case configureBackTiming f => exact ⟨_, rfl, .inl (.configure s fun _ u => .onBack u _)⟩
  case configurePagePolicy f => exact ⟨_, rfl, .inl (.configure s fun _ _ => ⟨rfl, rfl, rfl, rfl⟩)⟩
  case configureRunCompare f => exact ⟨_, rfl, .inl (.configure s fun _ u => ⟨rfl, rfl, rfl, rfl⟩)⟩
  case configureEntryLimit f => exact ⟨_, rfl, .inl (.configure s fun _ _ => ⟨rfl, rfl, rfl, rfl⟩)⟩
  case configureChannelSettings f => exact ⟨_, rfl, .inl (.configure s fun i u => ruleConfigureChannel_still u _ i)⟩
  case configureMeshSettings f => exact ⟨_, rfl, .inl (.configure s fun i u => ruleConfigureMesh_still u _ i)⟩
  case configureConverterMode f => exact ⟨_, rfl, .inl (.configure s fun i u => ruleConfigureMode_still u _ i)⟩
  case configureEventEnables f => exact ⟨_, rfl, .inl (.configure s fun _ _ => ⟨rfl, rfl, rfl, rfl⟩)⟩
  all_goals cases hc

end Sys2Proof.Machine

/-! PROOFS. What a detection makes of keys, domain records, the State Unit and memory (R142, R143, R165, R166), and that every
step keeps back memory in its canonical form. -/

namespace Sys2Proof.Machine

/-! ## Detections -/

namespace Still

theorem trans {s t u : State} (h : Still s t) (k : Still t u) : Still s u :=
  ⟨k.doms.trans h.doms, k.seeds.trans h.seeds, k.cab.trans h.cab, k.mem.trans h.mem⟩

end Still

theorem raise_still (f : Flag) (s : State) : Still s (raise f s) := .of_traffic (raise_traffic s f)

theorem recordAlarm_still (c : Cause) (s : State) : Still s (recordAlarm c s) :=
  (Still.onMon s _).trans (.of_traffic (raiseIf_traffic _ _ _))

/-- Background progress as a zeroisation leaves it on mains (R163, R166, R169). -/
def Background.afterAlarm (sub : ZeroSub) (b : Background) : Background := if sub = .scrubbing then b.start .scrub else b.stop

theorem Traffic.onCab {s t : State} (h : Traffic s t) (g : StateUnit → StateUnit) : Traffic (s.onCab g) (t.onCab g) :=
  ⟨h.doms, h.seeds, h.run, h.mon, congrArg g h.cab, h.mem, h.pending, h.arrivals⟩

theorem refuseWindows_traffic (s : State) : Traffic s (refuseWindows s) :=
  Traffic.foldl (fun u tag => refuse_traffic u tag .unready .noReason) _ s

/-- A zeroisation's reach into the main domain moves background progress and carries traffic beside that (R166). -/
theorem clearMainDomain_traffic (s : State) :
    Traffic (s.onCab fun c => { c with bg := c.bg.afterAlarm c.sub }) (clearMainDomain s) := by
  have emptied := (((allDemap_traffic s).trans (onXlat_traffic _ fun t => { t with walks := [], waiting := [] })).trans
    (onMaps_traffic _ fun _ => .reset)).trans (onEntry_traffic _ fun u => { u with waiting := [], work := none })
  have waiting := (emptied.trans (answerLock_traffic _ .state)).trans
    (onBack_traffic _ fun b => { b with waiting := b.waiting.filter (survivesAlarm s) })
  exact (waiting.onCab _).trans (refuseWindows_traffic _)

/-- What a zeroisation leaves of keys, domain records and State Unit (R165, R166). -/
structure Zeroised (s t : State) : Prop where
  doms : t.doms = s.doms.map DomRec.vacate
  seeds : t.seeds = s.seeds.destroy
  cab : t.cab = { s.cab with
    cabinet := .zeroed, sub := zeroSub s, bg := if live s then s.cab.bg.afterAlarm (zeroSub s) else s.cab.bg }
  mem : t.mem = s.mem

theorem zeroiseCabinet_zeroised (s : State) : Zeroised s (zeroiseCabinet s) := by
  unfold zeroiseCabinet
  split
  · next hlive =>
    have h := clearMainDomain_traffic (destroyKeys s)
    exact ⟨h.doms, h.seeds, by rw [h.cab, if_pos hlive]; rfl, h.mem⟩
  · next hlive => exact ⟨rfl, rfl, by rw [if_neg hlive]; rfl, rfl⟩

/-- A detection zeroises a cabinet that holds keys, and leaves keys and domains as they were in BLANK and ZEROED (R142,
R143, R165). -/
theorem detect_cases (c : Cause) (s : State) :
    ((s.cab.cabinet = .blank ∨ s.cab.cabinet = .zeroed) ∧ Still s (detect c s)) ∨
      (s.cab.cabinet ≠ .blank ∧ s.cab.cabinet ≠ .zeroed ∧ Zeroised s (detect c s)) := by
  unfold detect alarm
  dsimp only
  have hrec := recordAlarm_still c s
  split
  · next harmed =>
    have hblank : s.cab.cabinet ≠ .blank := by simpa [armed] using harmed
    split
    · next hzero => exact .inl ⟨.inr hzero, hrec⟩
    · next hzero =>
      have h := zeroiseCabinet_zeroised (recordAlarm c s)
      have hlive : live (recordAlarm c s) = live s := by rw [live, live, hrec.cab]
      have hsub : zeroSub (recordAlarm c s) = zeroSub s := by rw [zeroSub, zeroSub, hlive, hrec.cab]
      refine .inr ⟨hblank, hzero, ?_, ?_, ?_, h.mem.trans hrec.mem⟩
      · rw [h.doms, hrec.doms]
      · rw [h.seeds, hrec.seeds]
      · rw [h.cab, hlive, hsub, hrec.cab]
  · next harmed => exact .inl ⟨.inl (by simpa [armed] using harmed), .onMon s _⟩

/-- A row that detects with a cause, or does nothing to keys and domains: the detection comes after a change to the monitor
alone. -/
theorem detectChannel_eq (i : Fin 8) (s : State) :
    Still s (detectChannel i s) ∨ ∃ c u, Still s u ∧ detectChannel i s = detect c u := by
  unfold detectChannel
  split
  · exact .inr ⟨_, _, .onMon s _, rfl⟩
  · exact .inl (.refl s)

theorem detectMesh_eq (i : Fin 2) (s : State) :
    Still s (detectMesh i s) ∨ ∃ c u, Still s u ∧ detectMesh i s = detect c u := by
  unfold detectMesh
  split
  · exact .inr ⟨_, _, .onMon s _, rfl⟩
  · exact .inl (.refl s)

theorem registerLid_eq (isOpen : Bool) (s : State) :
    Still s (registerLid isOpen s) ∨ ∃ c u, Still s u ∧ registerLid isOpen s = detect c u := by
  unfold registerLid
  dsimp only
  split
  · exact .inr ⟨_, _, .onMon s _, rfl⟩
  · exact .inl (.onMon s _)

theorem registerPanel_eq (pressed : Bool) (s : State) :
    Still s (registerPanel pressed s) ∨ ∃ c u, Still s u ∧ registerPanel pressed s = detect c u := by
  unfold registerPanel
  dsimp only
  split
  · exact .inr ⟨_, _, .onMon s _, rfl⟩
  · exact .inl (.onMon s _)

/-! ## Back memory -/

theorem detect_mem (c : Cause) (s : State) : (detect c s).mem = s.mem := by
  rcases detect_cases c s with ⟨-, h⟩ | ⟨-, -, h⟩ <;> exact h.mem

/-- A row that detects leaves memory as it was. -/
theorem mem_of_detects {s t : State} (h : Still s t ∨ ∃ c u, Still s u ∧ t = detect c u) : t.mem = s.mem := by
  rcases h with h | ⟨c, u, hu, rfl⟩
  · exact h.mem
  · exact (detect_mem c u).trans hu.mem

/-- A command whose rule leaves memory as it was does so too. -/
theorem takeFrame_mem {f : Frame} {n : Nat} {rule : State → Reply} (s : State) (hrule : ∀ u, (rule u).2.mem = u.mem) :
    (takeFrame f n rule s).mem = s.mem :=
  takeFrame_keeps (P := fun u => u.mem = s.mem) (fun _ _ h => h) (fun u _ h => (hrule u).trans h) rfl

theorem configure_mem {f : Frame} {item maxIndex : Nat} {taken : State → Bool} {rule : Nat → State → Reply} (s : State)
    (hrule : ∀ i u, (rule i u).2.mem = u.mem) : (configure f item maxIndex taken rule s).mem = s.mem :=
  configure_keeps (P := fun u => u.mem = s.mem) (fun _ _ h => h) (fun i u _ _ h => (hrule i u).trans h) rfl

section Rules

variable (s : State)

theorem ruleCommission_mem : (ruleCommission s).2.mem = s.mem := by
  unfold ruleCommission
  repeat' split
  all_goals rfl

theorem ruleRecommission_mem : (ruleRecommission s).2.mem = s.mem := by
  unfold ruleRecommission
  repeat' split
  all_goals rfl

theorem ruleResume_mem : (ruleResume s).2.mem = s.mem := by
  unfold ruleResume
  split <;> rfl

theorem ruleClearMap_mem : (ruleClearMap s).2.mem = s.mem := by
  unfold ruleClearMap
  split <;> rfl

theorem ruleEnrol_mem (args : List Byte) : (ruleEnrol args s).2.mem = s.mem := by
  unfold ruleEnrol
  repeat' split
  all_goals rfl

theorem eraseDomain_mem (d : DomId) : (eraseDomain d s).mem = s.mem :=
  ((domainDemap_traffic _ d).trans (keepFills_traffic _ _)).mem

theorem ruleErase_mem (args : List Byte) : (ruleErase args s).2.mem = s.mem := by
  unfold ruleErase
  repeat' split
  any_goals rfl
  exact eraseDomain_mem s _

theorem ruleOpenRun_mem (args : List Byte) : (ruleOpenRun args s).2.mem = s.mem := by
  unfold ruleOpenRun
  repeat' split
  all_goals rfl

theorem ruleExtendRun_mem (args : List Byte) : (ruleExtendRun args s).2.mem = s.mem := by
  unfold ruleExtendRun
  repeat' split
  all_goals rfl

theorem ruleCloseRun_mem (args : List Byte) : (ruleCloseRun args s).2.mem = s.mem := by
  unfold ruleCloseRun
  repeat' split
  any_goals rfl
  exact (domainDemap_traffic _ _).mem

theorem ruleConfigurePab_mem (args : List Byte) (i : Nat) : (ruleConfigurePab args i s).2.mem = s.mem := by
  unfold ruleConfigurePab
  dsimp only
  split <;> rfl

theorem ruleConfigureScrub_mem (args : List Byte) (i : Nat) : (ruleConfigureScrub args i s).2.mem = s.mem := by
  unfold ruleConfigureScrub
  split <;> rfl

theorem offerBackground_mem : (offerBackground s).mem = s.mem := by
  unfold offerBackground
  repeat' split
  all_goals rfl

theorem finishScrub_mem : (finishScrub s).mem = s.mem := by
  unfold finishScrub
  split
  · exact (raise_still _ _).mem
  · rfl

theorem finishClear_mem : (finishClear s).mem = s.mem := by
  unfold finishClear
  split
  · exact (raise_still _ _).mem
  · rfl

theorem reportWrite_mem (q : BackReq) : (reportWrite q s).mem = s.mem := by
  unfold reportWrite
  repeat' split
  all_goals rfl

theorem pulse_mem : (pulse s).mem = s.mem := by
  unfold pulse
  split <;> rfl

theorem returnPower_mem (strap : BitVec 2) : (returnPower strap s).mem = s.mem := by
  unfold returnPower
  dsimp only
  split <;> rfl

end Rules

/-- Every write burst that has begun is driven in canonical form (R139). -/
theorem finishBursts_wf (b : BackCtl) {m : Memory} (h : m.wf) : (finishBursts b m).wf := by
  unfold finishBursts
  generalize b.bursts.filter _ = xs
  induction xs generalizing m with
  | nil => exact h
  | cons x xs ih => exact ih (Memory.writeLine_wf h _ _ _)

theorem finishWrite_wf {s : State} (h : s.mem.wf) : (finishWrite s).mem.wf := by
  unfold finishWrite
  split
  · split
    · rw [reportWrite_mem]
      exact Memory.writeLine_wf h _ _ _
    · exact h
  · exact h

theorem connectBattery_wf (pgood : Bool) (strap : BitVec 2) (s : State) : (connectBattery pgood strap s).mem.wf := by
  unfold connectBattery
  split
  · rw [returnPower_mem]
    exact Memory.blank_wf _
  · exact Memory.blank_wf _

/-- Every row keeps the canonical form: of those that touch it, a line write, a loss of power and the bursts that RST lets
end keep it, and the others leave memory as it was. -/
theorem exec_keeps_memory {c : Instr} {s t : State} (h : s.mem.wf) (hexec : exec c s = .next t) : t.mem.wf := by
  have hpulse : (afterPulse s).mem = s.mem := (afterPulse_ends s).mem
  suffices ∃ t', exec c s = .next t' ∧ t'.mem.wf by
    obtain ⟨t', ht', hwf⟩ := this
    rw [ht'] at hexec
    injection hexec with hexec
    exact hexec ▸ hwf
  by_cases hc : touchesVault c = false
  · obtain ⟨t', ht', hstill | hstill⟩ := exec_still s hc
    · exact ⟨t', ht', hstill.mem ▸ h⟩
    · exact ⟨t', ht', (hstill.mem.trans hpulse) ▸ h⟩
  have same {u : State} (hu : u.mem = s.mem) : u.mem.wf := hu ▸ h
  have after {u : State} (hu : u.mem = (afterPulse s).mem) : u.mem.wf := (hu.trans hpulse) ▸ h
  cases c
  case writeCompletion => exact ⟨_, rfl, finishWrite_wf h⟩
  case mainsLoss =>
    refine ⟨_, rfl, ?_⟩
    split
    · exact Memory.blank_wf _
    · exact h
  case rstAsserted =>
    refine ⟨_, rfl, ?_⟩
    split
    · exact finishBursts_wf _ h
    · exact h
  case firstBatteryConnection pgood strap => exact ⟨_, rfl, connectBattery_wf pgood strap s⟩
  case mainsReturn strap =>
    refine ⟨_, rfl, ?_⟩
    split
    · exact same (returnPower_mem s strap)
    · exact h
  case rstEnd strap =>
    refine ⟨_, rfl, ?_⟩
    split <;> exact h
  case runPulse => exact ⟨_, rfl, after (pulse_mem _)⟩
  case leaseExpiry d => exact ⟨_, rfl, same (expireLease_ends d s).mem⟩
  case channelDetection i => exact ⟨_, rfl, after (mem_of_detects (detectChannel_eq i _))⟩
  case meshDetection i => exact ⟨_, rfl, after (mem_of_detects (detectMesh_eq i _))⟩
  case lidRegistered isOpen => exact ⟨_, rfl, after (mem_of_detects (registerLid_eq isOpen _))⟩
  case panelRegistered pressed => exact ⟨_, rfl, after (mem_of_detects (registerPanel_eq pressed _))⟩
  case zeroise f => exact ⟨_, rfl, after (takeFrame_mem _ fun u => detect_mem .command u)⟩
  case backgroundLineOffer => exact ⟨_, rfl, same (offerBackground_mem s)⟩
  case scrubDone => exact ⟨_, rfl, same (finishScrub_mem s)⟩
  case clearDone => exact ⟨_, rfl, same (finishClear_mem s)⟩
  case commission f => exact ⟨_, rfl, same (takeFrame_mem s ruleCommission_mem)⟩
  case recommission f => exact ⟨_, rfl, same (takeFrame_mem s ruleRecommission_mem)⟩
  case resume f => exact ⟨_, rfl, same (takeFrame_mem s ruleResume_mem)⟩
  case clearMap f => exact ⟨_, rfl, same (takeFrame_mem s ruleClearMap_mem)⟩
  case enrol f => exact ⟨_, rfl, same (takeFrame_mem s fun u => ruleEnrol_mem u f.args)⟩
  case erase f => exact ⟨_, rfl, after (takeFrame_mem _ fun u => ruleErase_mem u f.args)⟩
  case openRun f => exact ⟨_, rfl, after (takeFrame_mem _ fun u => ruleOpenRun_mem u f.args)⟩
  case extendRun f => exact ⟨_, rfl, after (takeFrame_mem _ fun u => ruleExtendRun_mem u f.args)⟩
  case closeRun f => exact ⟨_, rfl, after (takeFrame_mem _ fun u => ruleCloseRun_mem u f.args)⟩
  case configurePab f => exact ⟨_, rfl, same (configure_mem s fun i u => ruleConfigurePab_mem u f.args i)⟩
  case configureScrubSetting f => exact ⟨_, rfl, same (configure_mem s fun i u => ruleConfigureScrub_mem u f.args i)⟩
  all_goals exact absurd rfl hc

/-- Settles O56: every row keeps the canonical form, and an empty queue leaves memory as it was. -/
theorem memoryLawKept : Obligations.MemoryLawKept := by
  unfold Obligations.MemoryLawKept
  intro s t h hstep
  exact stepsTo_keeps (P := fun s => s.mem.wf) (fun _ _ h => h) (fun _ _ _ h hexec => exec_keeps_memory h hexec)
    (fun s h => (idle_ticks s).mem ▸ h) h hstep

end Sys2Proof.Machine

/-! PROOFS. Every step keeps the laws of keys, cabinet and domains (R72, R73, R74, R79, R163, R164). -/

namespace Sys2Proof.Machine

/-! ## The law of one record -/

/-- What DomainLaw asks of an issuer domain's record (R72), `seeded` telling that the Seed Store holds its seed and
`openable` that the cabinet is READY on mains. -/
def DomRec.Lawful (seeded openable : Prop) (r : DomRec) : Prop :=
  (seeded ↔ r.state = .closed ∨ r.state = .opened) ∧ (r.state = .opened → r.lease ≠ 0#16 ∧ r.staged ≠ some 0#16) ∧
    (r.state ≠ .opened → r.lease = 0#16 ∧ r.staged = none) ∧ (r.state = .opened → openable)

/-- Issuer domains may be OPEN: the cabinet is READY on mains (R79). -/
def Openable (s : State) : Prop := live s = true ∧ s.cab.cabinet = .ready

theorem domainLaw_iff (s : State) :
    DomainLaw s ↔ (∀ d : Fin 64, d ≠ 0 → s.doms[d].Lawful (s.seeds.domains[d].isSome = true) (Openable s)) ∧
      s.doms[(0 : Fin 64)] = .reset := Iff.rfl

theorem DomRec.Lawful.openable {seeded openable openable' : Prop} {r : DomRec} (h : r.Lawful seeded openable)
    (ho : r.state = .opened → openable') : r.Lawful seeded openable' := ⟨h.1, h.2.1, h.2.2.1, ho⟩

/-- A record without a run: no lease and no extension. -/
theorem DomRec.lawful_of_not_opened {seeded openable : Prop} {r : DomRec} (hstate : r.state ≠ .opened)
    (hseed : seeded ↔ r.state = .closed) (hlease : r.lease = 0#16) (hstaged : r.staged = none) : r.Lawful seeded openable :=
  ⟨by simp [hseed, hstate], fun h => absurd h hstate, fun _ => ⟨hlease, hstaged⟩, fun h => absurd h hstate⟩

/-- A record in a run. -/
theorem DomRec.lawful_of_opened {seeded openable : Prop} {r : DomRec} (hstate : r.state = .opened) (hseed : seeded)
    (hlease : r.lease ≠ 0#16) (hstaged : r.staged ≠ some 0#16) (ho : openable) : r.Lawful seeded openable :=
  ⟨by simp [hseed, hstate], fun _ => ⟨hlease, hstaged⟩, fun h => absurd hstate h, fun _ => ho⟩

/-- A record that leaves OPEN for CLOSED keeps its seed. -/
theorem DomRec.Lawful.closed {seeded openable openable' : Prop} {r : DomRec} (h : r.Lawful seeded openable)
    (hopen : r.state = .opened) : r.endRun.Lawful seeded openable' :=
  DomRec.lawful_of_not_opened (by simp [DomRec.endRun]) (by simp [h.1, hopen, DomRec.endRun]) rfl rfl

/-- A run pulse keeps the law of a record: a lease that would reach 0 is left to LEASE_EXPIRY (R85). -/
theorem DomRec.Lawful.pulse {seeded openable : Prop} {r : DomRec} (h : r.Lawful seeded openable) :
    r.pulse.Lawful seeded openable := by
  unfold DomRec.pulse
  split
  · next hopen =>
    split
    · exact h
    · next hlease =>
      refine DomRec.lawful_of_opened hopen (by simp [h.1, hopen]) ?_ (h.2.1 hopen).2 (h.2.2.2 hopen)
      intro hzero
      have := congrArg BitVec.toNat hzero
      simp only [BitVec.toNat_sub, BitVec.toNat_ofNat] at this
      omega
  · exact h

/-- Mains loss and RST end every run (R92). -/
theorem DomRec.Lawful.loseRun {seeded openable openable' : Prop} {r : DomRec} (h : r.Lawful seeded openable) :
    r.loseRun.Lawful seeded openable' := by
  unfold DomRec.loseRun
  split
  · next hopen => exact h.closed hopen
  · next hopen => exact h.openable fun ho => absurd ho hopen

/-! ## The law of all records -/

section Records

variable {s : State}

/-- The laws depend on keys, domains and the State Unit alone. -/
theorem Still.keyLaws {t : State} (h : Still s t) : CabinetLaw s ∧ DomainLaw s → CabinetLaw t ∧ DomainLaw t := by
  unfold CabinetLaw DomainLaw live
  rw [h.doms, h.seeds, h.cab]
  exact id

/-- Where no domain may be OPEN, none is. -/
theorem DomainLaw.not_opened (h : DomainLaw s) (hs : ¬Openable s) (d : Fin 64) : s.doms[d].state ≠ .opened := by
  by_cases hd : d = 0
  · subst hd
    rw [((domainLaw_iff s).mp h).2]
    decide
  · exact fun ho => hs ((((domainLaw_iff s).mp h).1 d hd).2.2.2 ho)

theorem DomainLaw.ne_zero (h : DomainLaw s) {d : Fin 64} (hd : s.doms[d].state ≠ .vacant) : d ≠ 0 := by
  rintro rfl
  rw [((domainLaw_iff s).mp h).2] at hd
  exact hd rfl

/-- The laws of records stay where records and seeds do and no OPEN domain may lose its cabinet or its mains. -/
theorem DomainLaw.of_same {t : State} (h : DomainLaw s) (hdoms : t.doms = s.doms)
    (hseeds : ∀ d : Fin 64, d ≠ 0 → t.seeds.domains[d].isSome = s.seeds.domains[d].isSome)
    (hopen : Openable s → Openable t) : DomainLaw t := by
  rw [domainLaw_iff] at h ⊢
  rw [hdoms]
  refine ⟨fun d hd => ?_, h.2⟩
  rw [hseeds d hd]
  exact (h.1 d hd).openable fun ho => hopen ((h.1 d hd).2.2.2 ho)

/-- The laws of records after a change to every record that keeps the law and domain 0's. -/
theorem DomainLaw.of_map {t : State} {g : DomRec → DomRec} (h : DomainLaw s) (hdoms : t.doms = s.doms.map g)
    (hzero : g .reset = .reset)
    (hg : ∀ d : Fin 64, d ≠ 0 → (g s.doms[d]).Lawful (t.seeds.domains[d].isSome = true) (Openable t)) : DomainLaw t := by
  rw [domainLaw_iff]
  rw [hdoms]
  refine ⟨fun d hd => ?_, ?_⟩
  · have : (s.doms.map g)[d] = g s.doms[d] := Vector.getElem_map _ _
    rw [this]
    exact hg d hd
  · have : (s.doms.map g)[(0 : Fin 64)] = g s.doms[(0 : Fin 64)] := Vector.getElem_map _ _
    rw [this, ((domainLaw_iff s).mp h).2, hzero]

/-- The laws of records after a change to one issuer domain's. -/
theorem DomainLaw.onDom {t : State} {d : DomId} {g : DomRec → DomRec} (h : DomainLaw s) (hd : domIx d ≠ 0)
    (hdoms : t.doms = (Machine.onDom d g s).doms) (hopen : Openable s → Openable t)
    (hseeds : ∀ i : Fin 64, i ≠ domIx d → t.seeds.domains[i] = s.seeds.domains[i])
    (hg : (g s.doms[domIx d]).Lawful (t.seeds.domains[domIx d].isSome = true) (Openable t)) : DomainLaw t := by
  rw [domainLaw_iff] at h ⊢
  rw [hdoms]
  refine ⟨fun i hi => ?_, ?_⟩
  · by_cases hid : i = domIx d
    · subst hid
      rw [onDom_doms_self]
      exact hg
    · rw [onDom_doms_of_ne hid, hseeds i hid]
      exact (h.1 i hi).openable fun ho => hopen ((h.1 i hi).2.2.2 ho)
  · rw [onDom_doms_of_ne (Ne.symm hd)]
    exact h.2

theorem domIx_ne_zero {d : DomId} (h : d ≠ 0#6) : domIx d ≠ 0 := by
  intro hd
  apply h
  have := congrArg Fin.val hd
  exact BitVec.eq_of_toNat_eq (by simpa [domIx] using this)

end Records

/-! ## Run pulses -/

/-- The laws of keys, as KeyLawsKept has them. -/
def KeyLaws (s : State) : Prop := CabinetLaw s ∧ DomainLaw s

namespace KeyLaws

variable {s : State}

/-- The law of the cabinet depends on seeds, cabinet and background operation alone. -/
theorem cabinet_congr {t : State} (h : CabinetLaw s) (hseeds : t.seeds = s.seeds) (hcab : t.cab = s.cab) : CabinetLaw t := by
  unfold CabinetLaw live at *
  rwa [hseeds, hcab]

theorem expireLease (h : KeyLaws s) (d : DomId) : KeyLaws (Machine.expireLease d s) := by
  have hends := expireLease_ends d s
  refine ⟨cabinet_congr h.1 hends.seeds hends.cab, ?_⟩
  have hopenable : Openable (Machine.expireLease d s) ↔ Openable s := by rw [Openable, Openable, live, live, hends.cab]
  by_cases hc : live s = true ∧ s.doms[domIx d].ending = true ∧ s.doms[domIx d].state = .opened
  · obtain ⟨-, -, hstate⟩ := id hc
    have hd : domIx d ≠ 0 := h.2.ne_zero (by rw [hstate]; decide)
    have hrec := ((domainLaw_iff s).mp h.2).1 _ hd
    cases hstaged : s.doms[domIx d].staged with
    | some n =>
      refine h.2.onDom (g := fun x => { x with lease := n, staged := none, ending := false }) hd ?_ hopenable.mpr
        (fun i _ => by rw [hends.seeds]) ?_
      · unfold Machine.expireLease
        simp only [if_pos hc, hstaged]
        exact (raise_traffic _ _).doms
      · rw [hends.seeds, hopenable]
        refine DomRec.lawful_of_opened hstate (hrec.1.mpr (.inr hstate)) ?_ (by simp) (hrec.2.2.2 hstate)
        have := (hrec.2.1 hstate).2
        rw [hstaged] at this
        exact fun hn => this (congrArg some hn)
    | none =>
      refine h.2.onDom (g := DomRec.endRun) hd ?_ hopenable.mpr (fun i _ => by rw [hends.seeds]) ?_
      · unfold Machine.expireLease
        simp only [if_pos hc, hstaged]
        exact (raise_traffic _ _).doms.trans (domainDemap_traffic _ d).doms
      · rw [hends.seeds]
        exact hrec.closed hstate
  · unfold Machine.expireLease
    dsimp only
    rw [if_neg hc]
    exact h.2

theorem lapse (h : KeyLaws s) (x : Custodian) : KeyLaws (Machine.lapse x s) := (lapse_still s x).keyLaws h

theorem afterPulse (h : KeyLaws s) : KeyLaws (Machine.afterPulse s) := by
  have hfold : ∀ (l : List DomId) (u : State), KeyLaws u → KeyLaws (l.foldl (fun s d => Machine.expireLease d s) u) := by
    intro l
    induction l with
    | nil => exact fun u hu => hu
    | cons d l ih => exact fun u hu => ih _ (hu.expireLease d)
  unfold Machine.afterPulse
  split
  · exact ((hfold _ _ h).lapse _).lapse _
  · exact h

theorem pulse (h : KeyLaws s) : KeyLaws (Machine.pulse s) := by
  unfold Machine.pulse
  split
  · exact ⟨h.1, h.2.of_map rfl (by decide) fun d hd => (((domainLaw_iff s).mp h.2).1 d hd).pulse⟩
  · exact h

/-! ## Detections -/

theorem zeroised {t : State} (h : Zeroised s t) (hlaws : KeyLaws s) : KeyLaws t := by
  have hcab := h.cab
  have hlive : live t = live s := by rw [live, live, hcab]
  constructor
  · obtain ⟨-, -, -, -, -, hidle⟩ := hlaws.1
    unfold CabinetLaw
    rw [h.seeds, hlive, hcab]
    cases hl : live s
    · have hop := hidle hl
      simp [SeedStore.destroy, hop]
    · unfold Background.afterAlarm
      by_cases hsub : zeroSub s = .scrubbing <;> simp [SeedStore.destroy, hsub, Background.start, Background.stop]
  · refine hlaws.2.of_map h.doms (by decide) fun d _ => ?_
    exact DomRec.lawful_of_not_opened (by simp [DomRec.vacate, DomRec.reset])
      (by simp [h.seeds, SeedStore.destroy, DomRec.vacate, DomRec.reset]) rfl rfl

theorem detect (h : KeyLaws s) (c : Cause) : KeyLaws (Machine.detect c s) := by
  rcases detect_cases c s with ⟨-, hstill⟩ | ⟨-, -, hzero⟩
  · exact hstill.keyLaws h
  · exact zeroised hzero h

/-- A row that detects keeps the laws. -/
theorem of_detects {t : State} (ht : Still s t ∨ ∃ c u, Still s u ∧ t = Machine.detect c u) (h : KeyLaws s) : KeyLaws t := by
  rcases ht with ht | ⟨c, u, hu, rfl⟩
  · exact ht.keyLaws h
  · exact KeyLaws.detect (hu.keyLaws h) c

/-! ## Background operations -/

/-- The laws ask of background progress its operation alone. -/
theorem of_bg {t : State} (h : KeyLaws s) (hdoms : t.doms = s.doms) (hseeds : t.seeds = s.seeds)
    (hcab : ∃ bg, t.cab = { s.cab with bg := bg } ∧ bg.op = s.cab.bg.op) : KeyLaws t := by
  obtain ⟨bg, hcab, hop⟩ := hcab
  unfold KeyLaws CabinetLaw DomainLaw live at *
  rw [hdoms, hseeds, hcab, hop]
  exact h

theorem finishWrite (h : KeyLaws s) : KeyLaws (Machine.finishWrite s) := by
  have report (q : BackReq) (u : State) (hu : KeyLaws u) : KeyLaws (reportWrite q u) := by
    unfold reportWrite
    split
    · split
      · exact hu
      · exact hu
    · split
      · exact hu.of_bg rfl rfl ⟨_, rfl, rfl⟩
      · exact hu
    · exact hu
  unfold Machine.finishWrite
  split
  · split
    · exact report _ _ h
    · exact h
  · exact h

theorem offerBackground (h : KeyLaws s) : KeyLaws (Machine.offerBackground s) := by
  unfold Machine.offerBackground
  split
  · split
    · split
      · exact h.of_bg rfl rfl ⟨_, rfl, rfl⟩
      · exact h
    · exact h
  · exact h

theorem finishScrub (h : KeyLaws s) : KeyLaws (Machine.finishScrub s) := by
  unfold Machine.finishScrub
  split
  · next hc =>
    obtain ⟨hlive, hop, -⟩ := hc
    refine (raise_still _ _).keyLaws ⟨?_, h.2.of_same rfl (fun _ _ => rfl) id⟩
    obtain ⟨hclear, hroot, hzero, -, hscrub, -⟩ := h.1
    exact ⟨hclear, hroot, hzero, by simp [Background.stop], by simp [Background.stop], fun _ => rfl⟩
  · exact h

theorem finishClear (h : KeyLaws s) : KeyLaws (Machine.finishClear s) := by
  unfold Machine.finishClear
  split
  · next hc =>
    obtain ⟨hlive, hop, -⟩ := hc
    obtain ⟨-, hroot, hzero, hmap, -, -⟩ := h.1
    have hcab := hmap hop
    refine (raise_still _ _).keyLaws ⟨?_, h.2.of_same rfl (fun _ _ => rfl) ?_⟩
    · exact ⟨by simp, by simp [hroot, hcab], hzero, by simp [Background.stop], by simp [Background.stop], fun _ => rfl⟩
    · exact fun ho => absurd (hcab.symm.trans ho.2) (by decide)
  · exact h

/-! ## Power -/

/-- Mains loss and RST: every run ends, no background operation is left, and the rest of seeds and cabinet stays. -/
theorem of_stopped {t : State} (h : KeyLaws s) (hdoms : t.doms = s.doms.map DomRec.loseRun) (hseeds : t.seeds = s.seeds)
    (hcab : t.cab.cabinet = s.cab.cabinet) (hop : t.cab.bg.op = .idle) : KeyLaws t := by
  obtain ⟨hclear, hroot, hzero, -, -, -⟩ := h.1
  refine ⟨?_, h.2.of_map hdoms (by decide) fun d hd => ?_⟩
  · unfold CabinetLaw
    rw [hseeds, hcab, hop]
    exact ⟨hclear, hroot, hzero, by simp, by simp, fun _ => rfl⟩
  · rw [hseeds]
    exact (((domainLaw_iff s).mp h.2).1 d hd).loseRun

theorem atReturn_clearing (c : CabState) : c.atReturn = .clearing ↔ c = .clearing := by cases c <;> decide

theorem atReturn_keyed (c : CabState) : (c = .clearing ∨ c.atReturn = .restore ∨ c.atReturn = .ready) ↔
    (c = .clearing ∨ c = .restore ∨ c = .ready) := by cases c <;> decide

/-- Mains return and the end of RST: the cabinet moves from READY to RESTORE, and a map clear that is owed may restart on a
main domain that works. -/
theorem of_returned {t : State} (h : KeyLaws s) (hs : live s = false) (hdoms : t.doms = s.doms) (hseeds : t.seeds = s.seeds)
    (hcab : t.cab.cabinet = s.cab.cabinet.atReturn)
    (hop : t.cab.bg.op = .idle ∨ (live t = true ∧ s.cab.cabinet = .clearing ∧ t.cab.bg.op = .mapClear)) : KeyLaws t := by
  obtain ⟨hclear, hroot, hzero, -, -, -⟩ := h.1
  refine ⟨?_, h.2.of_same hdoms (fun d _ => by rw [hseeds]) fun ho => absurd ho.1 (by simp [hs])⟩
  unfold CabinetLaw
  rw [hseeds, hcab, atReturn_clearing, atReturn_keyed]
  refine ⟨hclear, hroot, hzero, ?_⟩
  rcases hop with hop | ⟨hlive, hcl, hop⟩
  · simp [hop]
  · simp [hop, hlive, hcl]

theorem losePower (h : KeyLaws s) : KeyLaws (Machine.losePower s) := h.of_stopped rfl rfl rfl rfl

theorem assertReset (h : KeyLaws s) : KeyLaws (Machine.assertReset s) := h.of_stopped rfl rfl rfl rfl

/-- The restart of the background operations at a return (R170, R174). -/
theorem atReturn_op (c : StateUnit) :
    c.atReturn.bg.op = .idle ∨ (c.cabinet = .clearing ∧ c.atReturn.bg.op = .mapClear) := by
  unfold StateUnit.atReturn
  by_cases h : c.cabinet = .clearing <;> simp [h, Background.start, Background.stop]

theorem returnPower (h : KeyLaws s) (hpower : s.cab.power = .battery) (strap : BitVec 2) :
    KeyLaws (Machine.returnPower strap s) := by
  have hs : live s = false := by simp [live, hpower]
  unfold Machine.returnPower
  dsimp only
  split
  · exact h.of_returned hs rfl rfl rfl (.inl rfl)
  · next hrst =>
    refine h.of_returned hs rfl rfl rfl ?_
    have hlive : live (beginMain true strap (s.onCab fun c => { c with power := .mains })) = true := by
      simp [live, beginMain, StateUnit.atReturn, State.onCab, hrst]
    rcases atReturn_op { s.cab with power := .mains } with hop | ⟨hcl, hop⟩
    · exact .inl hop
    · exact .inr ⟨hlive, hcl, hop⟩

theorem endReset (h : KeyLaws s) (hrow : s.cab.power = .mains ∧ s.cab.rst = true) (strap : BitVec 2) :
    KeyLaws (Machine.endReset strap s) := by
  refine h.of_returned (by simp [live, hrow.2]) rfl rfl rfl ?_
  have hlive : live (Machine.endReset strap s) = true := by
    simp [live, Machine.endReset, beginMain, StateUnit.atReturn, setRst, State.onCab, hrow.1]
  rcases atReturn_op { s.cab with rst := false } with hop | ⟨hcl, hop⟩
  · exact .inl hop
  · exact .inr ⟨hlive, hcl, hop⟩

/-- An RST row that only moves the level of its line. -/
theorem setRst_of_live {b : Bool} (h : KeyLaws s) (hlive : live (Machine.setRst b s) = live s) : KeyLaws (Machine.setRst b s) := by
  obtain ⟨hcab, hdom⟩ := h
  refine ⟨?_, hdom.of_same rfl (fun _ _ => rfl) fun ho => ⟨hlive.trans ho.1, ho.2⟩⟩
  unfold CabinetLaw at hcab ⊢
  rw [hlive]
  exact hcab

theorem coldState (s : State) : KeyLaws (Machine.coldState s) := by
  constructor
  · simp [CabinetLaw, Machine.coldState, SeedStore.reset, StateUnit.reset, Background.reset]
  · rw [domainLaw_iff]
    refine ⟨fun d _ => ?_, by simp [Machine.coldState, State.reset]⟩
    have hrec : (Machine.coldState s).doms[d] = .reset := by simp [Machine.coldState, State.reset]
    have hseed : (Machine.coldState s).seeds.domains[d] = none := by simp [Machine.coldState, SeedStore.reset]
    rw [hrec, hseed]
    exact DomRec.lawful_of_not_opened (by decide) (by simp [DomRec.reset]) rfl rfl

theorem connectBattery (pgood : Bool) (strap : BitVec 2) (s : State) : KeyLaws (Machine.connectBattery pgood strap s) := by
  unfold Machine.connectBattery
  split
  · exact (coldState s).returnPower rfl strap
  · exact coldState s

/-! ## Commands of the link -/

theorem onLink (s : State) (g : SupLink → SupLink) (h : KeyLaws s) : KeyLaws (s.onLink g) := h

/-- COMMISSION and RECOMMISSION leave fresh seeds, every domain VACANT and a map clear under way (R172). -/
theorem commissionCabinet (hlive : live s = true) : KeyLaws (Machine.commissionCabinet s) := by
  have hl : live (Machine.commissionCabinet s) = true := hlive
  constructor
  · unfold CabinetLaw
    rw [hl]
    simp [Machine.commissionCabinet, beginClear, State.onSeeds, State.onCab, Background.start]
  · rw [domainLaw_iff]
    have hrec : ∀ d : Fin 64, (Machine.commissionCabinet s).doms[d] = .reset := fun d => Vector.getElem_replicate _
    refine ⟨fun d hd => ?_, hrec 0⟩
    have hseed : (Machine.commissionCabinet s).seeds.domains[d] = none := by
      have hne : d.val ≠ 0 := fun h => hd (Fin.ext h)
      simp [Machine.commissionCabinet, beginClear, State.onSeeds, State.onCab, Vector.getElem_set_ne _ _ (Ne.symm hne)]
    rw [hrec, hseed]
    exact DomRec.lawful_of_not_opened (by decide) (by simp [DomRec.reset]) rfl rfl

theorem ruleCommission (s : State) (hlive : live s = true) (h : KeyLaws s) : KeyLaws (Machine.ruleCommission s).2 := by
  unfold Machine.ruleCommission
  repeat' split
  any_goals exact h
  exact commissionCabinet hlive

theorem ruleRecommission (s : State) (hlive : live s = true) (h : KeyLaws s) : KeyLaws (Machine.ruleRecommission s).2 := by
  unfold Machine.ruleRecommission
  repeat' split
  any_goals exact h
  exact commissionCabinet hlive

/-- A cabinet that moves among the three keyed states keeps the law of domains when none may be OPEN before. -/
theorem ruleResume (s : State) (h : KeyLaws s) : KeyLaws (Machine.ruleResume s).2 := by
  unfold Machine.ruleResume
  split
  · next hcab =>
    obtain ⟨hclear, hroot, hzero, hmap, hscrub, hidle⟩ := h.1
    refine ⟨?_, h.2.of_same rfl (fun _ _ => rfl) fun ho => absurd (hcab.symm.trans ho.2) (by decide)⟩
    rw [hcab] at hclear hroot hmap hscrub
    refine ⟨?_, ?_, hzero, ?_, ?_, hidle⟩
    · simpa [reply, State.onCab] using hclear
    · simpa [reply, State.onCab] using hroot
    · simpa [reply, State.onCab] using hmap
    · simpa [reply, State.onCab] using hscrub
  · exact h

theorem ruleClearMap (s : State) (hlive : live s = true) (h : KeyLaws s) : KeyLaws (Machine.ruleClearMap s).2 := by
  unfold Machine.ruleClearMap
  split
  · next hcab =>
    obtain ⟨-, hroot, hzero, -, -, -⟩ := h.1
    refine ⟨?_, h.2.of_same rfl (fun _ _ => rfl) fun ho => absurd (hcab.symm.trans ho.2) (by decide)⟩
    have hl : live (beginClear (s.onEntry fun u => { u with list := [] })) = true := hlive
    unfold CabinetLaw
    simp only [reply, hl]
    simp [beginClear, State.onCab, State.onSeeds, State.onEntry, Background.start]
    exact ⟨hroot.mpr (by simp [hcab]), hzero⟩
  · exact h

/-- The issuer domain that a run command names. -/
theorem argIssuer_ne_zero {args : List Byte} {d : DomId} (h : argIssuer args = some d) : d ≠ 0#6 := by
  unfold argIssuer at h
  split at h
  · split at h
    · cases h
    · next hne => injection h with h; exact h ▸ hne
  · cases h

theorem ruleEnrol (args : List Byte) (s : State) (h : KeyLaws s) : KeyLaws (Machine.ruleEnrol args s).2 := by
  unfold Machine.ruleEnrol
  split
  · exact h
  · next d hd =>
    split
    · exact h
    · split
      · exact h
      · next hstate =>
        have hne := argIssuer_ne_zero hd
        have hix := domIx_ne_zero hne
        have hvacant : s.doms[domIx d].state = .vacant := by simpa [domState_of_ne_zero hne] using hstate
        have hrec := ((domainLaw_iff s).mp h.2).1 _ hix
        obtain ⟨hlease, hstaged⟩ := hrec.2.2.1 (by rw [hvacant]; decide)
        obtain ⟨hclear, hroot, hzero, hrest⟩ := h.1
        change KeyLaws (enrolDomain d s)
        refine ⟨⟨hclear, hroot, ?_, hrest⟩, h.2.onDom (g := fun r => { r with state := .closed }) hix rfl id
          (fun i hi => enrolDomain_seeds_of_ne hi s) ?_⟩
        · rw [enrolDomain_seeds_of_ne (Ne.symm hix)]
          exact hzero
        · rw [enrolDomain_seeds_self]
          exact DomRec.lawful_of_not_opened (by simp) (by simp) hlease hstaged

/-- One record changes, and nothing else the laws ask about. -/
theorem onDom {d : DomId} {g : DomRec → DomRec} (h : KeyLaws s) (hd : domIx d ≠ 0)
    (hg : (g s.doms[domIx d]).Lawful (s.seeds.domains[domIx d].isSome = true) (Openable s)) :
    KeyLaws (Machine.onDom d g s) := ⟨h.1, h.2.onDom hd rfl id (fun _ _ => rfl) hg⟩

theorem ruleOpenRun (args : List Byte) (s : State) (hlive : live s = true) (h : KeyLaws s) :
    KeyLaws (Machine.ruleOpenRun args s).2 := by
  unfold Machine.ruleOpenRun
  split
  · exact h
  · next d hd =>
    split
    · exact h
    · next hlease =>
      split
      · exact h
      · next hcab =>
        split
        · exact h
        · next hstate =>
          have hne := argIssuer_ne_zero hd
          have hix := domIx_ne_zero hne
          have hclosed : s.doms[domIx d].state = .closed := by simpa [domState_of_ne_zero hne] using hstate
          have hrec := ((domainLaw_iff s).mp h.2).1 _ hix
          exact h.onDom hix (DomRec.lawful_of_opened rfl (hrec.1.mpr (.inl hclosed)) hlease (by simp)
            ⟨hlive, by simpa using hcab⟩)

theorem ruleExtendRun (args : List Byte) (s : State) (h : KeyLaws s) : KeyLaws (Machine.ruleExtendRun args s).2 := by
  unfold Machine.ruleExtendRun
  split
  · exact h
  · next d hd =>
    split
    · exact h
    · next hlease =>
      split
      · exact h
      · split
        · exact h
        · next hstate =>
          have hne := argIssuer_ne_zero hd
          have hix := domIx_ne_zero hne
          have hopen : s.doms[domIx d].state = .opened := by simpa [domState_of_ne_zero hne] using hstate
          have hrec := ((domainLaw_iff s).mp h.2).1 _ hix
          exact h.onDom hix (DomRec.lawful_of_opened hopen (hrec.1.mpr (.inr hopen)) (hrec.2.1 hopen).1
            (by simpa using hlease) (hrec.2.2.2 hopen))

theorem ruleCloseRun (args : List Byte) (s : State) (h : KeyLaws s) : KeyLaws (Machine.ruleCloseRun args s).2 := by
  unfold Machine.ruleCloseRun
  split
  · exact h
  · next d hd =>
    split
    · exact h
    · split
      · exact h
      · next hstate =>
        have hne := argIssuer_ne_zero hd
        have hix := domIx_ne_zero hne
        have hopen : s.doms[domIx d].state = .opened := by simpa [domState_of_ne_zero hne] using hstate
        have hrec := ((domainLaw_iff s).mp h.2).1 _ hix
        exact (Still.of_traffic (domainDemap_traffic _ d)).keyLaws (h.onDom (g := DomRec.endRun) hix (hrec.closed hopen))

/-- ERASE leaves a domain VACANT or SPENT without a seed (R82). -/
theorem eraseDomain {d : DomId} (h : KeyLaws s) (hix : domIx d ≠ 0) : KeyLaws (Machine.eraseDomain d s) := by
  have herased : KeyLaws (Machine.onDom d DomRec.erase (s.onSeeds fun x =>
      { x with domains := x.domains.set (domIx d).val none (domIx d).isLt })) := by
    have hself : ∀ v : Vector (Option Seed) 64, (v.set (domIx d).val none (domIx d).isLt)[domIx d] = none :=
      fun v => Vector.getElem_set_self _
    have hother : ∀ (v : Vector (Option Seed) 64) (i : Fin 64), i ≠ domIx d →
        (v.set (domIx d).val none (domIx d).isLt)[i] = v[i] :=
      fun v i hi => Vector.getElem_set_ne _ _ fun h => hi (Fin.ext h.symm)
    obtain ⟨hclear, hroot, hzero, hrest⟩ := h.1
    refine ⟨⟨hclear, hroot, ?_, hrest⟩, h.2.onDom hix rfl id (fun i hi => hother _ i hi) ?_⟩
    · exact (congrArg Option.isSome (hother s.seeds.domains 0 (Ne.symm hix))).trans hzero
    · have hseed : ¬((s.seeds.domains.set (domIx d).val none (domIx d).isLt)[domIx d]).isSome = true := by
        rw [hself]; decide
      unfold DomRec.erase
      split
      · exact DomRec.lawful_of_not_opened (by simp) (iff_of_false hseed (by simp)) rfl rfl
      · exact DomRec.lawful_of_not_opened (by simp) (iff_of_false hseed (by simp)) rfl rfl
  exact (Still.of_traffic (((onFront_traffic _ _).trans (domainDemap_traffic _ d)).trans (keepFills_traffic _ _))).keyLaws
    herased

theorem ruleErase (args : List Byte) (s : State) (h : KeyLaws s) : KeyLaws (Machine.ruleErase args s).2 := by
  unfold Machine.ruleErase
  split
  · exact h
  · next d hd =>
    repeat' split
    any_goals exact h
    exact h.eraseDomain (domIx_ne_zero (argIssuer_ne_zero hd))

theorem ruleConfigurePab (args : List Byte) (i : Nat) (s : State) (h : KeyLaws s) :
    KeyLaws (Machine.ruleConfigurePab args i s).2 := by
  unfold Machine.ruleConfigurePab
  dsimp only
  split
  · exact h
  · exact ⟨h.1, h.2.of_same rfl (fun _ _ => rfl) id⟩

theorem ruleConfigureScrub (args : List Byte) (i : Nat) (s : State) (h : KeyLaws s) :
    KeyLaws (Machine.ruleConfigureScrub args i s).2 := by
  unfold Machine.ruleConfigureScrub
  split
  · exact h
  · exact ⟨h.1, h.2.of_same rfl (fun _ _ => rfl) id⟩

end KeyLaws

/-! ## The obligation -/

/-- Every row keeps the laws of keys: a row that does not touch them by `exec_still`, each of the others by its own lemma. -/
theorem exec_keeps_keyLaws {c : Instr} {s t : State} (h : KeyLaws s) (hexec : exec c s = .next t) : KeyLaws t := by
  suffices ∃ t', exec c s = .next t' ∧ KeyLaws t' by
    obtain ⟨t', ht', hkeep⟩ := this
    rw [ht'] at hexec
    injection hexec with hexec
    exact hexec ▸ hkeep
  have hp := h.afterPulse
  by_cases hc : touchesVault c = false
  · obtain ⟨t', ht', hstill | hstill⟩ := exec_still s hc
    · exact ⟨t', ht', hstill.keyLaws h⟩
    · exact ⟨t', ht', hstill.keyLaws hp⟩
  have command {f : Frame} {n : Nat} {rule : State → Reply} {u : State} (hu : KeyLaws u)
      (hrule : ∀ s, live s = true → KeyLaws s → KeyLaws (rule s).2) : KeyLaws (takeFrame f n rule u) :=
    takeFrame_keeps KeyLaws.onLink hrule hu
  cases c
  case runPulse => exact ⟨_, rfl, hp.pulse⟩
  case leaseExpiry d => exact ⟨_, rfl, h.expireLease d⟩
  case writeCompletion => exact ⟨_, rfl, h.finishWrite⟩
  case channelDetection i => exact ⟨_, rfl, .of_detects (detectChannel_eq i _) hp⟩
  case meshDetection i => exact ⟨_, rfl, .of_detects (detectMesh_eq i _) hp⟩
  case lidRegistered isOpen => exact ⟨_, rfl, .of_detects (registerLid_eq isOpen _) hp⟩
  case panelRegistered pressed => exact ⟨_, rfl, .of_detects (registerPanel_eq pressed _) hp⟩
  case backgroundLineOffer => exact ⟨_, rfl, h.offerBackground⟩
  case scrubDone => exact ⟨_, rfl, h.finishScrub⟩
  case clearDone => exact ⟨_, rfl, h.finishClear⟩
  case mainsLoss =>
    refine ⟨_, rfl, ?_⟩
    split
    · exact h.losePower
    · exact h
  case mainsReturn strap =>
    refine ⟨_, rfl, ?_⟩
    split
    · next hpower => exact h.returnPower hpower strap
    · exact h
  case rstAsserted =>
    refine ⟨_, rfl, ?_⟩
    split
    · exact h.assertReset
    · next hrow => exact h.setRst_of_live (by cases hp : s.cab.power <;> simp_all [live, setRst, State.onCab])
  case rstEnd strap =>
    refine ⟨_, rfl, ?_⟩
    split
    · next hrow => exact h.endReset hrow strap
    · next hrow => exact h.setRst_of_live (by cases hp : s.cab.power <;> simp_all [live, setRst, State.onCab])
  case firstBatteryConnection pgood strap => exact ⟨_, rfl, .connectBattery pgood strap s⟩
  case commission f => exact ⟨_, rfl, command h KeyLaws.ruleCommission⟩
  case recommission f => exact ⟨_, rfl, command h KeyLaws.ruleRecommission⟩
  case resume f => exact ⟨_, rfl, command h fun u _ => .ruleResume u⟩
  case clearMap f => exact ⟨_, rfl, command h KeyLaws.ruleClearMap⟩
  case zeroise f => exact ⟨_, rfl, command hp fun u _ hu => hu.detect .command⟩
  case enrol f => exact ⟨_, rfl, command h fun u _ => .ruleEnrol f.args u⟩
  case erase f => exact ⟨_, rfl, command hp fun u _ => .ruleErase f.args u⟩
  case openRun f => exact ⟨_, rfl, command hp (KeyLaws.ruleOpenRun f.args)⟩
  case extendRun f => exact ⟨_, rfl, command hp fun u _ => .ruleExtendRun f.args u⟩
  case closeRun f => exact ⟨_, rfl, command hp fun u _ => .ruleCloseRun f.args u⟩
  case configurePab f =>
    exact ⟨_, rfl, configure_keeps KeyLaws.onLink (fun i u _ _ => .ruleConfigurePab f.args i u) h⟩
  case configureScrubSetting f =>
    exact ⟨_, rfl, configure_keeps KeyLaws.onLink (fun i u _ _ => .ruleConfigureScrub f.args i u) h⟩
  all_goals exact absurd rfl hc

/-- Settles O57: every row keeps the laws, and an empty queue moves neither keys nor domains nor the State Unit. -/
theorem keyLawsKept : Obligations.KeyLawsKept := by
  unfold Obligations.KeyLawsKept
  intro s t hcab hdom hstep
  refine stepsTo_keeps (P := KeyLaws) (fun _ _ h => h) (fun _ _ _ h hexec => exec_keeps_keyLaws h hexec) (fun s h => ?_)
    ⟨hcab, hdom⟩ hstep
  have ht := idle_ticks s
  exact Still.keyLaws ⟨ht.doms, ht.seeds, ht.cab, ht.mem⟩ h

end Sys2Proof.Machine

/-! PROOFS. The laws of lists and buffers (R2, R3, R33, R36, R44, R51, R57, R101, R129, R131, R133): each law in the form that
an operation is held against, and the relations that say of an operation that it keeps them. -/

namespace Sys2Proof.Machine

/-! ## Slots (R2, R3, R8) -/

/-- The slots are those of before, each with its transaction, and none is newly FOLLOWING. -/
def SlotsKept (s t : State) : Prop :=
  ∃ g : Slot → Slot, (∀ x, (g x).txn = x.txn) ∧ (∀ x, (g x).phase = .following → x.phase = .following) ∧
    t.front.slots = s.front.slots.map g

namespace SlotsKept

theorem of_eq {s t : State} (h : t.front.slots = s.front.slots) : SlotsKept s t :=
  ⟨id, fun _ => rfl, fun _ h => h, by simpa using h⟩

theorem trans {s t u : State} (h : SlotsKept s t) (k : SlotsKept t u) : SlotsKept s u := by
  obtain ⟨g, hg, hgp, hgs⟩ := h
  obtain ⟨g', hg', hgp', hgs'⟩ := k
  exact ⟨g' ∘ g, fun x => (hg' _).trans (hg x), fun x hx => hgp x (hgp' _ hx), by rw [hgs', hgs, List.map_map]⟩

theorem slotLaw {s t : State} (h : SlotsKept s t) (hs : SlotLaw s) : SlotLaw t := by
  obtain ⟨g, hg, -, hgs⟩ := h
  unfold SlotLaw at *
  rw [hgs, List.length_map, List.map_map]
  simpa [Function.comp_def, hg] using hs

end SlotsKept

/-- FollowingLaw by lines: the oldest transaction to a line is not FOLLOWING. -/
theorem followingLaw_iff (s : State) :
    FollowingLaw s ↔ ∀ l x, (s.front.slots.find? fun y => y.txn.line == l) = some x → x.phase ≠ .following := by
  constructor
  · intro h l x hx hphase
    obtain ⟨hl, before, after, hslots, hbefore⟩ := List.find?_eq_some_iff_append.mp hx
    obtain ⟨y, hy, hline⟩ := h before x after hslots hphase
    have := hbefore y hy
    simp_all
  · intro h before x after hslots hphase
    by_contra hno
    push Not at hno
    refine h x.txn.line x ?_ hphase
    rw [hslots, List.find?_append]
    have : (before.find? fun y => y.txn.line == x.txn.line) = none := by
      rw [List.find?_eq_none]
      intro y hy
      simpa using hno y hy
    simp [this]

theorem SlotsKept.followingLaw {s t : State} (h : SlotsKept s t) (hs : FollowingLaw s) : FollowingLaw t := by
  obtain ⟨g, hg, hgp, hgs⟩ := h
  rw [followingLaw_iff] at *
  intro l x hx hphase
  rw [hgs, List.find?_map] at hx
  obtain ⟨y, hy, rfl⟩ := Option.map_eq_some_iff.mp hx
  refine hs l y ?_ (hgp y hphase)
  simpa [Function.comp_def, hg] using hy

/-- The transaction of a tag is not FOLLOWING. -/
def Started (tag : Tag) (s : State) : Prop := ∀ x ∈ s.front.slots, x.txn.tag = tag → x.phase ≠ .following

theorem SlotsKept.started {s t : State} {tag : Tag} (h : SlotsKept s t) (hs : Started tag s) : Started tag t := by
  obtain ⟨g, hg, hgp, hgs⟩ := h
  intro x hx htag hphase
  rw [hgs] at hx
  obtain ⟨y, hy, rfl⟩ := List.mem_map.mp hx
  exact hs y hy (by rw [← htag, hg]) (hgp y hphase)

/-! ## The Entry Unit (R101) -/

/-- EntryLaw of the Entry Unit itself, its last clause over the entries of the page. -/
structure EntryUnit.Lawful (u : EntryUnit) : Prop where
  length : u.list.length ≤ 32
  nodup : (u.list.map fun e => (e.dom, e.fpn)).Nodup
  entries : ∀ e ∈ u.list, u.domain = some e.dom ∧ e.combinedSet &&& ~~~e.firstSet = 0#64
  work : ∀ c, u.work = some (.component c) → c.combines = true →
    ∀ e ∈ u.list, e.dom = c.dom → e.fpn = c.fpn → e.firstSet.getLsbD c.line.toNat = true

/-- The entry of a page is found exactly where it is listed. -/
theorem find?_entry_iff {l : List EntryRec} (h : (l.map fun e => (e.dom, e.fpn)).Nodup) (d : DomId) (f : Fpn) (e : EntryRec) :
    (l.find? fun e => e.dom == d && e.fpn == f) = some e ↔ e ∈ l ∧ e.dom = d ∧ e.fpn = f := by
  constructor
  · intro he
    have hp := List.find?_some he
    simp only [Bool.and_eq_true, beq_iff_eq] at hp
    exact ⟨List.mem_of_find?_eq_some he, hp⟩
  · rintro ⟨hmem, rfl, rfl⟩
    cases hf : l.find? fun x => x.dom == e.dom && x.fpn == e.fpn with
    | none => simpa using List.find?_eq_none.mp hf e hmem
    | some x =>
      have hp := List.find?_some hf
      simp only [Bool.and_eq_true, beq_iff_eq] at hp
      exact congrArg some (List.inj_on_of_nodup_map h (List.mem_of_find?_eq_some hf) hmem (by simp [hp]))

theorem entryLaw_iff (s : State) : EntryLaw s ↔ s.entry.Lawful := by
  constructor
  · rintro ⟨hlen, hnodup, hentries, hwork⟩
    refine ⟨hlen, hnodup, hentries, fun c hc hcomb e he hd hf => hwork c hc hcomb e ?_⟩
    exact (find?_entry_iff hnodup _ _ e).mpr ⟨he, hd, hf⟩
  · rintro ⟨hlen, hnodup, hentries, hwork⟩
    refine ⟨hlen, hnodup, hentries, fun c hc hcomb e he => ?_⟩
    obtain ⟨hmem, hd, hf⟩ := (find?_entry_iff hnodup _ _ e).mp he
    exact hwork c hc hcomb e hmem hd hf

namespace EntryUnit.Lawful

variable {u : EntryUnit}

/-- The law asks of the unit its list, its domain and the operation in progress alone. -/
theorem congr {v : EntryUnit} (h : u.Lawful) (hlist : v.list = u.list) (hdom : v.domain = u.domain) (hwork : v.work = u.work) :
    v.Lawful := by
  obtain ⟨h1, h2, h3, h4⟩ := h
  exact ⟨hlist ▸ h1, hlist ▸ h2, by rw [hlist, hdom]; exact h3, by rw [hlist, hwork]; exact h4⟩

/-- Entries may leave. -/
theorem filter (h : u.Lawful) (p : EntryRec → Bool) : ({ u with list := u.list.filter p } : EntryUnit).Lawful := by
  obtain ⟨h1, h2, h3, h4⟩ := h
  exact ⟨(List.length_filter_le _ _).trans h1, h2.sublist ((List.filter_sublist).map _),
    fun e he => h3 e (List.mem_of_mem_filter he), fun c hc hcomb e he => h4 c hc hcomb e (List.mem_of_mem_filter he)⟩

/-- Entries may change but for their pages, if their sets stay as they should be and no line leaves a first-line set. -/
theorem map (h : u.Lawful) {g : EntryRec → EntryRec} (hpage : ∀ e, (g e).dom = e.dom ∧ (g e).fpn = e.fpn)
    (hsets : ∀ e ∈ u.list, (g e).combinedSet &&& ~~~(g e).firstSet = 0#64)
    (hfirst : ∀ e n, e.firstSet.getLsbD n = true → (g e).firstSet.getLsbD n = true) :
    ({ u with list := u.list.map g } : EntryUnit).Lawful := by
  obtain ⟨h1, h2, h3, h4⟩ := h
  refine ⟨by simpa using h1, ?_, ?_, ?_⟩
  · rw [List.map_map]
    simpa [Function.comp_def, hpage] using h2
  · intro e he
    obtain ⟨x, hx, rfl⟩ := List.mem_map.mp he
    exact ⟨by rw [(hpage x).1]; exact (h3 x hx).1, hsets x hx⟩
  · intro c hc hcomb e he hd hf
    obtain ⟨x, hx, rfl⟩ := List.mem_map.mp he
    exact hfirst x _ (h4 c hc hcomb x hx ((hpage x).1.symm.trans hd) ((hpage x).2.symm.trans hf))

/-- The operation in progress may give way to one that is no combining write, or whose line is in its first-line set. -/
theorem setWork (h : u.Lawful) {w : Option EntryWork} (hw : ∀ c, w = some (.component c) → c.combines = true →
    ∀ e ∈ u.list, e.dom = c.dom → e.fpn = c.fpn → e.firstSet.getLsbD c.line.toNat = true) :
    ({ u with work := w } : EntryUnit).Lawful := ⟨h.length, h.nodup, h.entries, hw⟩

/-- A unit without entries. -/
theorem of_nil (hlist : u.list = []) : u.Lawful :=
  ⟨by simp [hlist], by simp [hlist], by simp [hlist], by simp [hlist]⟩

end EntryUnit.Lawful

/-! ## The Back Queue (R129, R133) -/

/-- QueueLaw of the Back Controller itself. -/
structure BackCtl.Lawful (b : BackCtl) : Prop where
  length : b.queue.length ≤ 24
  service : b.service.length ≤ 4
  nodup : (b.queue.map fun q => q.id).Nodup
  named : ∀ q ∈ b.queue, q.id < b.nextId

theorem queueLaw_iff (s : State) : QueueLaw s ↔ s.back.Lawful :=
  ⟨fun ⟨h1, h2, h3, h4⟩ => ⟨h1, h2, h3, h4⟩, fun ⟨h1, h2, h3, h4⟩ => ⟨h1, h2, h3, h4⟩⟩

namespace BackCtl.Lawful

variable {b : BackCtl}

theorem congr {b' : BackCtl} (h : b.Lawful) (hqueue : b'.queue = b.queue) (hservice : b'.service = b.service)
    (hnext : b'.nextId = b.nextId) : b'.Lawful := by
  obtain ⟨h1, h2, h3, h4⟩ := h
  exact ⟨hqueue ▸ h1, hservice ▸ h2, hqueue ▸ h3, by rw [hqueue, hnext]; exact h4⟩

/-- A request enters while there is room. -/
theorem push (h : b.Lawful) (hroom : b.queue.length < 24) (w : Bool) (l : BackLine) (o : Origin) (beat : Beat) (d : Line)
    (m : Marks) : (b.push w l o beat d m).Lawful := by
  obtain ⟨h1, h2, h3, h4⟩ := h
  refine ⟨by simp [BackCtl.push]; omega, h2, ?_, ?_⟩
  · simp only [BackCtl.push, newRequest, List.map_append, List.map_cons, List.map_nil]
    rw [List.nodup_append]
    refine ⟨h3, by simp, fun x hx y hy => ?_⟩
    obtain ⟨q, hq, rfl⟩ := List.mem_map.mp hx
    have := h4 q hq
    simp at hy
    omega
  · intro q hq
    simp only [BackCtl.push, List.mem_append, List.mem_singleton] at hq ⊢
    rcases hq with hq | rfl
    · exact (h4 q hq).trans (Nat.lt_succ_self _)
    · exact Nat.lt_succ_self _

/-- Requests may change but for their names, and leave. -/
theorem of_sublist {b' : BackCtl} (h : b.Lawful) (hqueue : (b'.queue.map fun q => q.id).Sublist (b.queue.map fun q => q.id))
    (hservice : b'.service.length ≤ 4) (hnext : b'.nextId = b.nextId) : b'.Lawful := by
  obtain ⟨h1, h2, h3, h4⟩ := h
  refine ⟨?_, hservice, h3.sublist hqueue, fun q hq => ?_⟩
  · have := hqueue.length_le
    simp only [List.length_map] at this
    omega
  · obtain ⟨q', hq', hid⟩ := List.mem_map.mp (hqueue.subset (List.mem_map_of_mem (f := fun q : BackReq => q.id) hq))
    rw [hnext, ← hid]
    exact h4 q' hq'

end BackCtl.Lawful

/-! ## The translation buffers (R50, R51, R57) -/

/-- The places of the two buffers: an entry of the Fixed Buffer, or a way of a set, `true` naming way 1. -/
abbrev Place := Fin 16 ⊕ (Fin 256 × Bool)

/-- The page held at a place. -/
def Translation.pageAt (t : Translation) : Place → Option Page
  | .inl i => t.fixed[i].page
  | .inr (i, false) => t.sets[i].way0.page
  | .inr (i, true) => t.sets[i].way1.page

/-- The pair of a page (R50). -/
def Page.pair (p : Page) : DomId × Fpn := (p.dom, p.fpn)

/-- The pair of a walk (R57). -/
def Walk.pair (w : Walk) : DomId × Fpn := (w.dom, w.fpn)

/-- The places in the order in which `buffered` takes them. -/
def places : List Place :=
  (List.finRange 16).map Sum.inl ++ (List.finRange 256).flatMap fun i => [Sum.inr (i, false), Sum.inr (i, true)]

theorem mem_places (a : Place) : a ∈ places := by
  unfold places
  rcases a with i | ⟨i, w⟩
  · simp
  · cases w <;> simp

theorem nodup_places : places.Nodup := by
  unfold places
  rw [List.nodup_append]
  refine ⟨(List.nodup_finRange 16).map Sum.inl_injective, ?_, ?_⟩
  · rw [List.nodup_flatMap]
    refine ⟨fun i _ => by simp, (List.nodup_finRange 256).imp fun {i j} hij => ?_⟩
    simp [Function.onFun, hij.symm]
  · intro a ha b hb
    obtain ⟨i, -, rfl⟩ := List.mem_map.mp ha
    obtain ⟨j, -, hj⟩ := List.mem_flatMap.mp hb
    simp only [List.mem_cons, List.not_mem_nil, or_false] at hj
    rcases hj with rfl | rfl <;> simp

theorem toList_eq_map_finRange {n : Nat} {α : Type} (v : Vector α n) : v.toList = (List.finRange n).map fun i => v[i] := by
  apply List.ext_getElem <;> simp

/-- The pages held are those at the places. -/
theorem buffered_eq (t : Translation) : buffered t = places.filterMap t.pageAt := by
  unfold buffered places
  rw [List.filterMap_append, toList_eq_map_finRange, toList_eq_map_finRange, List.filterMap_map, List.filterMap_map,
    List.flatMap_map, List.filterMap_flatMap]
  congr 1
  refine List.flatMap_congr fun i _ => ?_
  simp only [List.filterMap_cons, List.filterMap_nil, Translation.pageAt]
  cases t.sets[i].way0.page <;> cases t.sets[i].way1.page <;> rfl

theorem mem_buffered_iff {t : Translation} {p : Page} : p ∈ buffered t ↔ ∃ a, t.pageAt a = some p := by
  rw [buffered_eq, List.mem_filterMap]
  exact ⟨fun ⟨a, _, h⟩ => ⟨a, h⟩, fun ⟨a, h⟩ => ⟨a, mem_places a, h⟩⟩

/-- No pair is held twice exactly when no two places hold pages of one pair. -/
theorem nodup_buffered_iff (t : Translation) : ((buffered t).map fun p => (p.dom, p.fpn)).Nodup ↔
    ∀ a b p q, t.pageAt a = some p → t.pageAt b = some q → p.pair = q.pair → a = b := by
  rw [buffered_eq, List.Nodup, List.pairwise_map, List.pairwise_filterMap]
  constructor
  · intro h a b p q hp hq hpair
    by_contra hne
    have : Std.Symm fun a a' => ∀ b, t.pageAt a = some b → ∀ b', t.pageAt a' = some b' → (b.dom, b.fpn) ≠ (b'.dom, b'.fpn) :=
      ⟨fun x y hxy b hb b' hb' => Ne.symm (hxy b' hb' b hb)⟩
    exact h.forall (mem_places a) (mem_places b) hne p hp q hq hpair
  · intro h
    exact nodup_places.imp fun {a b} hne p hp q hq hpair => hne (h a b p q hp hq hpair)

/-- BufferLaw of the Translation Unit, by places; `ok d` tells that domain `d` may have a page buffered. -/
structure Translation.Lawful (ok : DomId → Prop) (t : Translation) : Prop where
  single : ∀ a b p q, t.pageAt a = some p → t.pageAt b = some q → p.pair = q.pair → a = b
  domains : ∀ a p, t.pageAt a = some p → ok p.dom
  walks : ∀ a p, t.pageAt a = some p → ∀ w ∈ t.walks, w.pair ≠ p.pair
  sets : ∀ i w p, t.pageAt (.inr (i, w)) = some p → (setIndex p.dom p.fpn).toNat = i.val ∧ p.cls ≠ .key

/-- A domain may have pages buffered: it is OPEN, and the main domain works (R51). -/
def Bufferable (s : State) (d : DomId) : Prop := live s = true ∧ domState s d = .opened

theorem bufferLaw_iff (s : State) : BufferLaw s ↔ s.xlat.Lawful (Bufferable s) := by
  unfold BufferLaw
  rw [nodup_buffered_iff]
  constructor
  · rintro ⟨h1, h2, h3⟩
    refine ⟨h1, fun a p ha => ?_, fun a p ha w hw => ?_, fun i w p ha => ?_⟩
    · obtain ⟨hlive, hopen, -⟩ := h2 p (mem_buffered_iff.mpr ⟨a, ha⟩)
      exact ⟨hlive, hopen⟩
    · exact (h2 p (mem_buffered_iff.mpr ⟨a, ha⟩)).2.2 w hw
    · have hat : s.xlat.setAt (BitVec.ofFin i) = s.xlat.sets[i] := rfl
      obtain ⟨hi, hcls⟩ := h3 (BitVec.ofFin i) p (by rw [hat]; cases w <;> simp_all [Translation.pageAt])
      exact ⟨by rw [hi]; rfl, hcls⟩
  · rintro ⟨h1, h2, h3, h4⟩
    refine ⟨h1, fun p hp => ?_, fun i p hp => ?_⟩
    · obtain ⟨a, ha⟩ := mem_buffered_iff.mp hp
      exact ⟨(h2 a p ha).1, (h2 a p ha).2, h3 a p ha⟩
    · have hset : ∀ w, s.xlat.pageAt (.inr (i.toFin, w)) = some p → setIndex p.dom p.fpn = i ∧ p.cls ≠ .key := by
        intro w hw
        obtain ⟨hi, hcls⟩ := h4 i.toFin w p hw
        exact ⟨BitVec.eq_of_toNat_eq hi, hcls⟩
      rcases hp with hp | hp
      · exact hset false hp
      · exact hset true hp

/-- Pages may leave the buffers and change but for pair and class; walks may leave and change but for their pairs. -/
structure Shrinks (t t' : Translation) : Prop where
  pages : ∀ a q, t'.pageAt a = some q → ∃ p, t.pageAt a = some p ∧ p.pair = q.pair ∧ p.cls = q.cls
  walks : (t'.walks.map Walk.pair).Sublist (t.walks.map Walk.pair)

namespace Shrinks

theorem refl (t : Translation) : Shrinks t t := ⟨fun _ q h => ⟨q, h, rfl, rfl⟩, .refl _⟩

theorem trans {t t' t'' : Translation} (h : Shrinks t t') (k : Shrinks t' t'') : Shrinks t t'' := by
  refine ⟨fun a r hr => ?_, k.walks.trans h.walks⟩
  obtain ⟨q, hq, hpair, hcls⟩ := k.pages a r hr
  obtain ⟨p, hp, hpair', hcls'⟩ := h.pages a q hq
  exact ⟨p, hp, hpair'.trans hpair, hcls'.trans hcls⟩

/-- The same pages at the same places. -/
theorem of_pages {t t' : Translation} (h : ∀ a, t'.pageAt a = t.pageAt a)
    (hw : (t'.walks.map Walk.pair).Sublist (t.walks.map Walk.pair)) : Shrinks t t' :=
  ⟨fun a q hq => ⟨q, (h a).symm.trans hq, rfl, rfl⟩, hw⟩

theorem mem_walk {t t' : Translation} (h : Shrinks t t') {w : Walk} (hw : w ∈ t'.walks) : ∃ v ∈ t.walks, v.pair = w.pair := by
  simpa using h.walks.subset (List.mem_map_of_mem hw)

/-- A domain that may have pages buffered may go on to, as far as pages of it are left. -/
theorem lawful {ok ok' : DomId → Prop} {t t' : Translation} (h : Shrinks t t') (ht : t.Lawful ok)
    (hok : ∀ a p, t'.pageAt a = some p → ok p.dom → ok' p.dom) : t'.Lawful ok' := by
  refine ⟨fun a b p q hp hq hpair => ?_, fun a p hp => ?_, fun a p hp w hw => ?_, fun i w p hp => ?_⟩
  · obtain ⟨p', hp', hpp, -⟩ := h.pages a p hp
    obtain ⟨q', hq', hqq, -⟩ := h.pages b q hq
    exact ht.single a b p' q' hp' hq' (by rw [hpp, hqq, hpair])
  · obtain ⟨p', hp', hpp, -⟩ := h.pages a p hp
    have hd : p'.dom = p.dom := congrArg Prod.fst hpp
    exact hok a p hp (hd ▸ ht.domains a p' hp')
  · obtain ⟨p', hp', hpp, -⟩ := h.pages a p hp
    obtain ⟨v, hv, hvw⟩ := h.mem_walk hw
    rw [← hpp, ← hvw]
    exact ht.walks a p' hp' v hv
  · obtain ⟨p', hp', hpp, hcls⟩ := h.pages _ p hp
    have hd : p'.dom = p.dom := congrArg Prod.fst hpp
    have hf : p'.fpn = p.fpn := congrArg Prod.snd hpp
    rw [← hd, ← hf, ← hcls]
    exact ht.sets i w p' hp'

end Shrinks

/-- WalkLaw of the Translation Unit. -/
def WalksOk (t : Translation) : Prop := t.walks.length ≤ 4 ∧ (t.walks.map Walk.pair).Nodup

theorem walkLaw_iff (s : State) : WalkLaw s ↔ WalksOk s.xlat := Iff.rfl

theorem Shrinks.walksOk {t t' : Translation} (h : Shrinks t t') (ht : WalksOk t) : WalksOk t' := by
  have := h.walks.length_le
  simp only [List.length_map] at this
  exact ⟨this.trans ht.1, ht.2.sublist h.walks⟩

/-! ## What an operation keeps -/

/-- An operation that carries traffic and keeps the laws of slots, Back Queue, Entry List, walks and buffers. -/
structure Steady (s t : State) : Prop where
  traffic : Traffic s t
  slots : SlotsKept s t
  queue : s.back.Lawful → t.back.Lawful
  entry : s.entry.Lawful → t.entry.Lawful
  walks : WalksOk s.xlat → WalksOk t.xlat
  buffers : s.xlat.Lawful (Bufferable s) → t.xlat.Lawful (Bufferable t)

/-- The makers that wait are none twice, and no update's line read but those that waited before. -/
def WaitsKept (ws ws' : List Waiter) : Prop := (ws.Nodup → ws'.Nodup) ∧ ∀ k, .updateRead k ∈ ws' → .updateRead k ∈ ws

/-- A steady operation that leaves the Update List, the Fill List and the order for fill room as they were. -/
structure Calm (s t : State) : Prop extends Steady s t where
  waiting : WaitsKept s.back.waiting t.back.waiting
  updates : t.maps.updates = s.maps.updates
  fills : t.maps.fills = s.maps.fills
  roomOrder : t.maps.roomOrder = s.maps.roomOrder

/-- A calm operation that puts no page into the buffers and starts no walk. -/
structure Quiet (s t : State) : Prop extends Calm s t where
  shrinks : Shrinks s.xlat t.xlat

theorem Traffic.bufferable {s t : State} (h : Traffic s t) : Bufferable t = Bufferable s := by
  funext d
  rw [Bufferable, Bufferable, live, live, domState, domState, h.cab, h.doms]

namespace Steady

theorem refl (s : State) : Steady s s := ⟨.refl s, .of_eq rfl, id, id, id, id⟩

theorem trans {s t u : State} (h : Steady s t) (k : Steady t u) : Steady s u :=
  ⟨h.traffic.trans k.traffic, h.slots.trans k.slots, k.queue ∘ h.queue, k.entry ∘ h.entry, k.walks ∘ h.walks,
    k.buffers ∘ h.buffers⟩

theorem ite {s t u : State} {c : Prop} [Decidable c] (h : Steady s t) (k : Steady s u) : Steady s (if c then t else u) := by
  split
  · exact h
  · exact k

end Steady

namespace Calm

theorem refl (s : State) : Calm s s := ⟨.refl s, ⟨id, fun _ => id⟩, rfl, rfl, rfl⟩

theorem trans {s t u : State} (h : Calm s t) (k : Calm t u) : Calm s u :=
  ⟨h.toSteady.trans k.toSteady, ⟨k.waiting.1 ∘ h.waiting.1, fun n hn => h.waiting.2 n (k.waiting.2 n hn)⟩,
    k.updates.trans h.updates, k.fills.trans h.fills, k.roomOrder.trans h.roomOrder⟩

theorem ite {s t u : State} {c : Prop} [Decidable c] (h : Calm s t) (k : Calm s u) : Calm s (if c then t else u) := by
  split
  · exact h
  · exact k

end Calm

namespace Quiet

/-- What makes an operation quiet: walks and buffers follow from what it does to the pages. -/
theorem mk' {s t : State} (traffic : Traffic s t) (slots : SlotsKept s t) (queue : s.back.Lawful → t.back.Lawful)
    (entry : s.entry.Lawful → t.entry.Lawful) (waiting : WaitsKept s.back.waiting t.back.waiting)
    (updates : t.maps.updates = s.maps.updates) (fills : t.maps.fills = s.maps.fills)
    (roomOrder : t.maps.roomOrder = s.maps.roomOrder) (shrinks : Shrinks s.xlat t.xlat) : Quiet s t :=
  ⟨⟨⟨traffic, slots, queue, entry, shrinks.walksOk, fun h => shrinks.lawful h fun _ _ _ hok => traffic.bufferable ▸ hok⟩,
    waiting, updates, fills, roomOrder⟩, shrinks⟩

theorem refl (s : State) : Quiet s s := ⟨.refl s, .refl _⟩

theorem trans {s t u : State} (h : Quiet s t) (k : Quiet t u) : Quiet s u :=
  ⟨h.toCalm.trans k.toCalm, h.shrinks.trans k.shrinks⟩

theorem ite {s t u : State} {c : Prop} [Decidable c] (h : Quiet s t) (k : Quiet s u) : Quiet s (if c then t else u) := by
  split
  · exact h
  · exact k

theorem foldl {α : Type} {f : State → α → State} (k : ∀ u a, Quiet u (f u a)) (l : List α) (s : State) :
    Quiet s (l.foldl f s) := by
  induction l generalizing s with
  | nil => exact refl s
  | cons a l ih => exact (k s a).trans (ih _)

end Quiet

end Sys2Proof.Machine

/-! PROOFS. What each operation on traffic keeps of the laws of lists and buffers, in the order of the model's definitions:
quiet operations first, then those that start a walk or insert a page. -/

namespace Sys2Proof.Machine

/-! ## Pages after a change of one place -/

/-- A way of a set. -/
def SetRow.way (w : Bool) (r : SetRow) : Held := if w then r.way1 else r.way0

theorem Translation.pageAt_inr (t : Translation) (i : Fin 256) (w : Bool) :
    t.pageAt (.inr (i, w)) = (t.sets[i].way w).page := by cases w <;> rfl

theorem Translation.pageAt_onFixed (t : Translation) (i : Fin 16) (g : FixedEntry → FixedEntry) (a : Place) :
    (t.onFixed i g).pageAt a = if a = .inl i then (g t.fixed[i]).page else t.pageAt a := by
  rcases a with j | ⟨j, w⟩
  · by_cases h : j = i
    · subst h
      simp only [if_true]
      exact congrArg FixedEntry.page (t.onFixed_self j g)
    · rw [if_neg (by simpa using h)]
      exact congrArg FixedEntry.page (Translation.onFixed_of_ne h g t)
  · cases w <;> simp [Translation.pageAt, Translation.onFixed]

theorem Translation.pageAt_onSet_inl (t : Translation) (i : BitVec 8) (g : SetRow → SetRow) (j : Fin 16) :
    (t.onSet i g).pageAt (.inl j) = t.pageAt (.inl j) := rfl

theorem Translation.pageAt_onSet (t : Translation) (i : BitVec 8) (g : SetRow → SetRow) (j : Fin 256) (w : Bool) :
    (t.onSet i g).pageAt (.inr (j, w)) = if j = i.toFin then ((g (t.setAt i)).way w).page else t.pageAt (.inr (j, w)) := by
  rw [pageAt_inr, pageAt_inr]
  by_cases h : j = i.toFin
  · subst h
    have : (t.onSet i g).sets[i.toFin] = g (t.setAt i) := Vector.getElem_set_self _
    rw [this, if_pos rfl]
  · have : (t.onSet i g).sets[j] = t.sets[j] :=
      Vector.getElem_set_ne i.isLt j.isLt fun hij => h (Fin.ext hij.symm)
    rw [this, if_neg h]

theorem pageAt_setAt (t : Translation) (i : BitVec 8) (w : Bool) : t.pageAt (.inr (i.toFin, w)) = ((t.setAt i).way w).page :=
  t.pageAt_inr _ _

/-- A change to a set that keeps both ways keeps every page. -/
theorem Translation.pageAt_onSet_of_ways (t : Translation) (i : BitVec 8) (g : SetRow → SetRow)
    (hg : ∀ w, ((g (t.setAt i)).way w).page = ((t.setAt i).way w).page) (a : Place) : (t.onSet i g).pageAt a = t.pageAt a := by
  rcases a with j | ⟨j, w⟩
  · rfl
  · rw [pageAt_onSet]
    split
    · next h => rw [h, hg, pageAt_setAt]
    · rfl

theorem Translation.pageAt_demap (t : Translation) (hit : Page → Bool) (a : Place) :
    (t.demap hit).pageAt a = (t.pageAt a).filter fun p => !hit p := by
  rcases a with i | ⟨i, w⟩
  · simp only [pageAt, demap_fixed, FixedEntry.demap_page]
  · rw [pageAt_inr, pageAt_inr, demap_sets]
    cases w <;> exact Held.demap_page hit _

/-! ## What does not put a page into the buffers -/

theorem Shrinks.demap (t : Translation) (hit : Page → Bool) : Shrinks t (t.demap hit) := by
  refine ⟨fun a q hq => ⟨q, ?_, rfl, rfl⟩, .refl _⟩
  rw [Translation.pageAt_demap] at hq
  exact (Option.filter_eq_some_iff.mp hq).1

theorem Shrinks.drop (t : Translation) :
    Shrinks t { t with fixed := t.fixed.map FixedEntry.drop, sets := t.sets.map SetRow.drop } := by
  refine ⟨fun a q hq => ?_, .refl _⟩
  rcases a with i | ⟨i, w⟩
  · simp [Translation.pageAt] at hq
  · rw [Translation.pageAt_inr] at hq
    cases w <;> simp [SetRow.way] at hq

/-- A lookup finds pages and moves none (R52). -/
theorem Translation.pageAt_lookup (t : Translation) (d : DomId) (f : Fpn) (a : Place) :
    (t.lookup d f).2.pageAt a = t.pageAt a := by
  unfold lookup
  split
  · next i _ =>
    rw [pageAt_onFixed]
    split
    · next h => rw [h]; rfl
    · rfl
  · dsimp only
    split
    · exact t.pageAt_onSet_of_ways _ _ (fun w => by cases w <;> rfl) a
    · split
      · exact t.pageAt_onSet_of_ways _ _ (fun w => by cases w <;> rfl) a
      · rfl

theorem Translation.lookup_walks (t : Translation) (d : DomId) (f : Fpn) : (t.lookup d f).2.walks = t.walks := by
  unfold lookup
  split
  · rfl
  · dsimp only
    split
    · rfl
    · split <;> rfl

theorem Shrinks.lookup (t : Translation) (d : DomId) (f : Fpn) : Shrinks t (t.lookup d f).2 :=
  .of_pages (t.pageAt_lookup d f) (by rw [t.lookup_walks])

/-- A lifecycle written in place changes neither a page's pair nor its class (R43). -/
theorem Held.page_setLife {h : Held} {d : DomId} {f : Fpn} {life : Lifecycle} {q : Page}
    (hq : (h.setLife d f life).page = some q) : ∃ p, h.page = some p ∧ p.pair = q.pair ∧ p.cls = q.cls := by
  unfold setLife at hq
  split at hq
  · obtain ⟨hv, rfl⟩ := Held.page_eq_some.mp hq
    exact ⟨h.fields, Held.page_eq_some.mpr ⟨hv, rfl⟩, rfl, rfl⟩
  · exact ⟨q, hq, rfl, rfl⟩

theorem Shrinks.setLife (t : Translation) (d : DomId) (f : Fpn) (life : Lifecycle) : Shrinks t (t.setLife d f life) := by
  refine ⟨fun a q hq => ?_, .refl _⟩
  rcases a with i | ⟨i, w⟩
  · simp only [Translation.pageAt, Translation.setLife, Fin.getElem_fin, Vector.getElem_map] at hq
    exact Held.page_setLife hq
  · rw [Translation.pageAt_inr] at hq ⊢
    simp only [Translation.setLife, Fin.getElem_fin, Vector.getElem_map] at hq
    cases w <;> exact Held.page_setLife hq

/-- Walks may change but for their pairs. -/
theorem Shrinks.mapWalks (t : Translation) {g : Walk → Walk} (hg : ∀ w, (g w).pair = w.pair) :
    Shrinks t { t with walks := t.walks.map g } :=
  .of_pages (fun _ => rfl) (by simp [Function.comp_def, hg])

/-! ## Quiet steps of one block -/

section Blocks

variable (s : State)

theorem WaitsKept.refl (ws : List Waiter) : WaitsKept ws ws := ⟨id, fun _ => id⟩

theorem quiet_onFront {g : FrontPort → FrontPort} (h : SlotsKept s (s.onFront g)) : Quiet s (s.onFront g) :=
  .mk' (onFront_traffic s g) h id id (.refl _) rfl rfl rfl (.refl _)

theorem quiet_onXlat {g : Translation → Translation} (h : Shrinks s.xlat (g s.xlat)) : Quiet s (s.onXlat g) :=
  .mk' (onXlat_traffic s g) (.of_eq rfl) id id (.refl _) rfl rfl rfl h

theorem quiet_onEntry {g : EntryUnit → EntryUnit} (h : s.entry.Lawful → (g s.entry).Lawful) : Quiet s (s.onEntry g) :=
  .mk' (onEntry_traffic s g) (.of_eq rfl) id h (.refl _) rfl rfl rfl (.refl _)

theorem quiet_onBack {g : BackCtl → BackCtl} (h : s.back.Lawful → (g s.back).Lawful)
    (hw : WaitsKept s.back.waiting (g s.back).waiting) : Quiet s (s.onBack g) :=
  .mk' (onBack_traffic s g) (.of_eq rfl) h id hw rfl rfl rfl (.refl _)

theorem quiet_onMaps {g : MapUnit → MapUnit} (hu : (g s.maps).updates = s.maps.updates) (hf : (g s.maps).fills = s.maps.fills)
    (hr : (g s.maps).roomOrder = s.maps.roomOrder) : Quiet s (s.onMaps g) :=
  .mk' (onMaps_traffic s g) (.of_eq rfl) id id (.refl _) hu hf hr (.refl _)

theorem quiet_onEv (g : EventUnit → EventUnit) : Quiet s (s.onEv g) :=
  .mk' (onEv_traffic s g) (.of_eq rfl) id id (.refl _) rfl rfl rfl (.refl _)

theorem quiet_onLink (g : SupLink → SupLink) : Quiet s (s.onLink g) :=
  .mk' (onLink_traffic s g) (.of_eq rfl) id id (.refl _) rfl rfl rfl (.refl _)

end Blocks

/-! ## Shared operations -/

section Shared

variable (s : State)

theorem raise_quiet (f : Flag) : Quiet s (raise f s) := .ite (quiet_onEv s _) (.refl s)

theorem raiseIf_quiet (c : Bool) (f : Flag) : Quiet s (raiseIf c f s) := .ite (raise_quiet s f) (.refl s)

theorem report_quiet (r : Report) : Quiet s (report r s) := quiet_onEv s _

theorem onSlot_quiet (tag : Tag) {g : Slot → Slot} (hg : ∀ x, (g x).txn = x.txn)
    (hp : ∀ x, (g x).phase = .following → x.phase = .following) : Quiet s (onSlot tag g s) := by
  refine quiet_onFront s ⟨fun x => if x.txn.tag == tag then g x else x, fun x => ?_, fun x => ?_, rfl⟩
  · dsimp only
    split
    · exact hg x
    · rfl
  · dsimp only
    split
    · exact hp x
    · exact id

theorem setPhase_quiet (tag : Tag) {ph : Phase} (h : ph ≠ .following) : Quiet s (setPhase tag ph s) :=
  onSlot_quiet s tag (fun _ => rfl) fun _ hx => absurd hx h

theorem respond_quiet (tag : Tag) (st : Status) (d : Line) : Quiet s (respond tag st d s) :=
  setPhase_quiet s tag (ph := .responding st d) (by nofun)

theorem respondDone_quiet (tag : Tag) : Quiet s (respondDone tag s) := respond_quiet s tag .done zeroLine

theorem refuse_quiet (tag : Tag) (k : Kind) (r : Reason) : Quiet s (refuse tag k r s) := by
  unfold refuse
  split
  · exact .refl s
  · exact (respond_quiet s _ _ _).trans (report_quiet _ _)

theorem demapBy_quiet (hit : Page → Bool) : Quiet s (demapBy hit s) :=
  (quiet_onXlat s (.demap _ hit)).trans (raiseIf_quiet _ _ _)

theorem pageDemap_quiet (d : DomId) (f : Fpn) : Quiet s (pageDemap d f s) := demapBy_quiet s _

theorem domainDemap_quiet (d : DomId) : Quiet s (domainDemap d s) := demapBy_quiet s _

theorem allDemap_quiet : Quiet s (allDemap s) := (quiet_onXlat s (.drop _)).trans (raiseIf_quiet _ _ _)

theorem markStale_quiet (k : MapLine) : Quiet s (markStale k s) :=
  quiet_onXlat s (.mapWalks _ fun w => by split <;> rfl)

theorem enqueue_quiet (hroom : s.back.queue.length < 24) (w : Bool) (l : BackLine) (o : Origin) (b : Beat) (d : Line)
    (m : Marks) : Quiet s (enqueue w l o b d m s) :=
  quiet_onBack s (fun h => h.push hroom w l o b d m) (.refl _)

theorem enqueueRead_quiet (hroom : s.back.queue.length < 24) (l : BackLine) (o : Origin) (b : Beat) :
    Quiet s (enqueueRead l o b s) := enqueue_quiet s hroom _ _ _ _ _ _

theorem enqueueWrite_quiet (hroom : s.back.queue.length < 24) (l : BackLine) (o : Origin) (d : Line) :
    Quiet s (enqueueWrite l o d s) := enqueue_quiet s hroom _ _ _ _ _ _

/-- A maker begins to wait once (R131). -/
theorem beginWait_quiet {w : Waiter} (hw : ∀ k, w ≠ .updateRead k) : Quiet s (beginWait w s) := by
  refine quiet_onBack s (fun h => h.congr ?_ ?_ ?_) ?_
  any_goals split <;> rfl
  split
  · exact .refl _
  · next hnot =>
    have hnew : w ∉ s.back.waiting := by simpa using hnot
    refine ⟨fun h => ?_, fun k hk => ?_⟩
    · rw [List.nodup_append]
      exact ⟨h, by simp, fun x hx y hy hxy => by simp_all⟩
    · rcases List.mem_append.mp hk with hk | hk
      · exact hk
      · exact absurd (List.mem_singleton.mp hk).symm (hw k)

theorem endWait_quiet (w : Waiter) : Quiet s (endWait w s) :=
  quiet_onBack s (fun h => h.congr rfl rfl rfl) ⟨fun h => h.erase _, fun _ hk => List.mem_of_mem_erase hk⟩

theorem rawWatch_quiet (k : MapLine) : Quiet s (rawWatch k s) := by
  unfold rawWatch
  generalize mapLinePairs k = l
  exact (markStale_quiet s k).trans (Quiet.foldl (fun u (p : DomId × Fpn) => pageDemap_quiet u p.1 p.2) l _)

/-! ### Room in the Back Queue -/

theorem hasRoom_lt {s : State} {w : Waiter} (h : hasRoom s w = true) : s.back.queue.length < 24 := by
  unfold hasRoom at h
  split at h
  · exact (of_decide_eq_true h).trans_lt (by decide)
  · exact of_decide_eq_true h

/-- A maker that may enter finds room (R131). -/
theorem mayEnter_lt {s : State} {w : Waiter} (h : mayEnter w s = true) : s.back.queue.length < 24 := by
  unfold mayEnter at h
  split at h
  · next v hv => exact hasRoom_lt (List.find?_some hv)
  · exact hasRoom_lt h

/-! ### Entering -/

theorem enterFront_quiet (hroom : s.back.queue.length < 24) (tag : Tag) : Quiet s (enterFront tag s) := by
  unfold enterFront
  split
  · exact .refl s
  · split
    · exact (enqueueRead_quiet s hroom _ _ _).trans (setPhase_quiet _ _ (by nofun))
    · split
      · exact (enqueue_quiet s hroom _ _ _ _ _ _).trans (respondDone_quiet _ _)
      · split
        · exact ((enqueueWrite_quiet s hroom _ _ _).trans (rawWatch_quiet _ _)).trans (respondDone_quiet _ _)
        · exact (enqueueWrite_quiet s hroom _ _ _).trans (respondDone_quiet _ _)
      · split
        · exact (enqueueWrite_quiet s hroom _ _ _).trans (respondDone_quiet _ _)
        · exact refuse_quiet s _ _ _
      · exact .refl s
    · exact .refl s

theorem enterWalk_quiet (hroom : s.back.queue.length < 24) (d : DomId) (f : Fpn) : Quiet s (enterWalk d f s) := by
  unfold enterWalk
  refine (enqueueRead_quiet s hroom _ _ _).trans (quiet_onXlat _ ?_)
  exact .mapWalks _ fun w => by split <;> rfl

/-- The operation in progress may give way to any but a component write. -/
theorem setWork_quiet {w : Option EntryWork} (hw : ∀ c, w ≠ some (.component c)) : Quiet s (setWork w s) :=
  quiet_onEntry s fun h => h.setWork fun c hc => absurd hc (hw c)

/-- The component write in progress moves to another stage. -/
theorem setStage_quiet {c : CompOp} (h : s.entry.work = some (.component c)) (st : CompStage) :
    Quiet s (setWork (some (.component { c with stage := st })) s) := by
  refine quiet_onEntry s fun hl => hl.setWork fun c' hc' => ?_
  cases hc'
  exact hl.work c h

theorem removeEntry_quiet (d : DomId) (f : Fpn) : Quiet s (removeEntry d f s) := quiet_onEntry s fun h => h.filter _

theorem dropNewEntry_quiet (c : CompOp) : Quiet s (dropNewEntry c s) := .ite (.refl s) (quiet_onEntry s fun h => h.filter _)

/-- An entry's phase may change. -/
theorem onEntryRec_phase_quiet (d : DomId) (f : Fpn) (ph : EntryPhase) :
    Quiet s (onEntryRec d f (fun e => { e with phase := ph }) s) := by
  refine quiet_onEntry s fun h => h.map (fun e => ?_) (fun e he => ?_) (fun e n hn => ?_)
  · split <;> exact ⟨rfl, rfl⟩
  · split <;> exact (h.entries e he).2
  · split <;> exact hn

/-- A line that has entered joins its set (R106, R107). -/
theorem mark_and_not_eq_zero {n : Nat} {first : Marks} (h : first.getLsbD n = true) : (1#64 <<< n) &&& ~~~first = 0#64 := by
  apply BitVec.eq_of_getLsbD_eq
  intro i hi
  simp only [BitVec.getLsbD_and, BitVec.getLsbD_shiftLeft, BitVec.getLsbD_not, BitVec.getLsbD_one, BitVec.getLsbD_zero]
  by_cases hin : i = n
  · subst hin
    simp [h]
  · rcases Nat.lt_or_gt_of_ne hin with hlt | hgt
    · simp [hlt]
    · have : ¬i - n = 0 := by omega
      simp [this]

theorem markLine_quiet {c : CompOp} (h : s.entry.work = some (.component c)) :
    Quiet s (onEntryRec c.dom c.fpn (fun e =>
      if c.combines then { e with combinedSet := e.combinedSet ||| ((1#64 : Marks) <<< c.line.toNat) }
      else { e with firstSet := e.firstSet ||| ((1#64 : Marks) <<< c.line.toNat) }) s) := by
  refine quiet_onEntry s fun hl => hl.map (fun e => ?_) (fun e he => ?_) (fun e n hn => ?_)
  · split
    · split <;> exact ⟨rfl, rfl⟩
    · exact ⟨rfl, rfl⟩
  · have hset := (hl.entries e he).2
    split
    · next hpage =>
      simp only [Bool.and_eq_true, beq_iff_eq] at hpage
      split
      · next hcomb =>
        have hmark := mark_and_not_eq_zero (hl.work c h hcomb e he hpage.1 hpage.2)
        simp only [BitVec.and_comm _ (~~~e.firstSet), BitVec.and_or_distrib_left] at hset hmark ⊢
        rw [hset, hmark]
        rfl
      · simp only [BitVec.not_or, ← BitVec.and_assoc, hset, BitVec.zero_and]
    · exact hset
  · split
    · split
      · exact hn
      · simp [hn]
    · exact hn

theorem enterEntry_quiet (hroom : s.back.queue.length < 24) : Quiet s (enterEntry s) := by
  unfold enterEntry
  split
  · next c hc =>
    split
    · exact (enqueueRead_quiet s hroom _ _ _).trans (setStage_quiet _ (by exact hc) _)
    · split
      · exact (((enqueueWrite_quiet s hroom _ _ _).trans (markLine_quiet _ (by exact hc))).trans
          (respondDone_quiet _ _)).trans (setWork_quiet _ (by nofun))
      · exact ((dropNewEntry_quiet s c).trans (refuse_quiet _ _ _ _)).trans (setWork_quiet _ (by nofun))
    · exact .refl s
  · exact .refl s

theorem enterLiveFill_quiet (hroom : s.back.queue.length < 24) : Quiet s (enterLiveFill s) := by
  unfold enterLiveFill
  split
  · split
    · dsimp only
      have sent := fun (b : BackLine) (d : Line) (w : EntryWork) (hw : ∀ c, some w ≠ some (.component c)) =>
        (enqueueWrite_quiet s hroom b .fill d).trans (setWork_quiet _ hw)
      split
      · exact sent _ _ _ (by nofun)
      · exact (sent _ _ _ (by nofun)).trans (beginWait_quiet _ (by nofun))
    · exact .refl s
  · exact .refl s

/-- Any maker but an update's line read enters quietly. -/
theorem enter_quiet (hroom : s.back.queue.length < 24) {w : Waiter} (hw : ∀ k, w ≠ .updateRead k) : Quiet s (enter w s) := by
  cases w
  case front => exact enterFront_quiet s hroom _
  case walk => exact enterWalk_quiet s hroom _ _
  case updateRead k => exact absurd rfl (hw k)
  case entry => exact enterEntry_quiet s hroom
  case liveFill => exact enterLiveFill_quiet s hroom
  all_goals exact .refl s

theorem offer_quiet {w : Waiter} (hw : ∀ k, w ≠ .updateRead k) : Quiet s (offer w s) := by
  unfold offer
  split
  · next h => exact enter_quiet s (mayEnter_lt h) hw
  · exact beginWait_quiet s hw

theorem offerRead_quiet (t : Tag) (l : BackLine) : Quiet s (offerRead t l s) :=
  (setPhase_quiet s _ (by nofun)).trans (offer_quiet _ (by nofun))

theorem offerWrite_quiet (t : Tag) (l : BackLine) (d : Line) : Quiet s (offerWrite t l d s) :=
  (setPhase_quiet s _ (by nofun)).trans (offer_quiet _ (by nofun))

end Shared

/-! ## Key-window access -/

section Key

variable (s : State)

theorem handToEntry_quiet (t : Tag) (p : Page) : Quiet s (handToEntry t p s) :=
  (setPhase_quiet s _ (by nofun)).trans (quiet_onEntry _ fun h => h.congr rfl rfl rfl)

theorem serveKey_quiet (tag : Tag) (t : Txn) (p : Page) : Quiet s (serveKey tag t p s) := by
  unfold serveKey
  dsimp only
  split
  · exact offerRead_quiet s _ _
  · exact .ite (respondDone_quiet s _) (.ite (offerWrite_quiet s _ _ _) (offerRead_quiet s _ _))

theorem classCheck_quiet (tag : Tag) (p : Page) : Quiet s (classCheck tag p s) := by
  unfold classCheck
  split
  · exact .refl s
  · split
    · exact refuse_quiet s _ _ _
    · split
      · exact refuse_quiet s _ _ _
      · exact .ite (serveKey_quiet s _ _ _) (refuse_quiet s _ _ _)
      · exact serveKey_quiet s _ _ _
      · exact serveKey_quiet s _ _ _
      · exact .ite (serveKey_quiet s _ _ _) (refuse_quiet s _ _ _)
      · exact handToEntry_quiet s _ _

theorem joinWalk_quiet (tag : Tag) (d : DomId) (f : Fpn) : Quiet s (joinWalk tag d f s) := by
  refine (setPhase_quiet s tag (ph := .walkWaiter) (by nofun)).trans (quiet_onXlat _ ?_)
  exact .mapWalks _ fun w => by split <;> rfl

theorem waitForWalk_quiet (tag : Tag) (r : Bool) : Quiet s (waitForWalk tag r s) := by
  refine (setPhase_quiet s tag (ph := .walkWaiting) (by nofun)).trans (quiet_onXlat _ ?_)
  exact .of_pages (fun _ => rfl) (.refl _)

theorem serveWaiter_quiet (page : Option Page) (tag : Tag) : Quiet s (serveWaiter page s tag) := by
  unfold serveWaiter
  split
  · exact .refl s
  · split
    · exact refuse_quiet s _ _ _
    · split
      · exact refuse_quiet s _ _ _
      · exact classCheck_quiet s _ _

theorem servePlain_quiet (tag : Tag) (t : Txn) : Quiet s (servePlain tag t s) := by
  unfold servePlain
  split
  · exact offerRead_quiet s _ _
  · exact .ite (respondDone_quiet s _) (offerWrite_quiet s _ _ _)

theorem serveRaw_quiet (tag : Tag) (t : Txn) : Quiet s (serveRaw tag t s) := by
  unfold serveRaw
  dsimp only
  split
  · exact offerRead_quiet s _ _
  · exact .ite (respondDone_quiet s _) (.ite (offerWrite_quiet s _ _ _) (offerRead_quiet s _ _))

theorem serveMap_quiet (tag : Tag) (t : Txn) : Quiet s (serveMap tag t s) := by
  unfold serveMap
  dsimp only
  split
  · exact .ite (setPhase_quiet s _ (by nofun)) (offerRead_quiet s _ _)
  · exact .ite (respondDone_quiet s _) ((setPhase_quiet s _ (by nofun)).trans (quiet_onMaps _ rfl rfl rfl))

theorem answerLock_quiet (c : AnsCode) : Quiet s (answerLock c s) := quiet_onLink s _

/-! ## Walks -/

/-- No place holds a page of a pair (R52). -/
def Translation.Lacks (d : DomId) (f : Fpn) (t : Translation) : Prop := ∀ a p, t.pageAt a = some p → p.pair ≠ (d, f)

theorem Translation.Lacks.mono {t t' : Translation} {d : DomId} {f : Fpn} (h : t.Lacks d f) (k : Shrinks t t') : t'.Lacks d f := by
  intro a q hq
  obtain ⟨p, hp, hpair, -⟩ := k.pages a q hq
  exact hpair ▸ h a p hp

theorem isOf_iff {d : DomId} {f : Fpn} {p : Page} : Page.isOf d f p = true ↔ p.pair = (d, f) := by
  simp [Page.isOf, Page.pair]

theorem Held.holds_isOf_iff {h : Held} {d : DomId} {f : Fpn} :
    h.holds (Page.isOf d f) = true ↔ ∃ p, h.page = some p ∧ p.pair = (d, f) := by
  constructor
  · intro hh
    simp only [Held.holds, Bool.and_eq_true] at hh
    exact ⟨h.fields, Held.page_eq_some.mpr ⟨hh.1, rfl⟩, isOf_iff.mp hh.2⟩
  · rintro ⟨p, hp, hpair⟩
    obtain ⟨hv, rfl⟩ := Held.page_eq_some.mp hp
    simp [Held.holds, hv, isOf_iff.mpr hpair]

theorem Translation.fixedHit_none {t : Translation} {d : DomId} {f : Fpn} (h : t.fixedHit d f = none) (i : Fin 16) (p : Page)
    (hp : t.pageAt (.inl i) = some p) : p.pair ≠ (d, f) := by
  intro hpair
  have := List.find?_eq_none.mp h i (List.mem_finRange i)
  exact this (Held.holds_isOf_iff.mpr ⟨p, hp, hpair⟩)

/-- A pair whose set and the Fixed Buffer hold no page of it is nowhere in the buffers, every page of the Set Buffer being in
the set that R23 gives it (R51, R52). -/
theorem Translation.Lawful.lacks {ok : DomId → Prop} {t : Translation} {d : DomId} {f : Fpn} (h : t.Lawful ok)
    (hfixed : t.fixedHit d f = none) (hset : ∀ w, ((t.setAt (setIndex d f)).way w).holds (Page.isOf d f) = false) :
    t.Lacks d f := by
  intro a p hp hpair
  rcases a with i | ⟨i, w⟩
  · exact fixedHit_none hfixed i p hp hpair
  · obtain ⟨hi, -⟩ := h.sets i w p hp
    have hd : p.dom = d := congrArg Prod.fst hpair
    have hf : p.fpn = f := congrArg Prod.snd hpair
    rw [hd, hf] at hi
    have hix : i = (setIndex d f).toFin := Fin.ext hi.symm
    rw [hix, pageAt_setAt] at hp
    have := Held.holds_isOf_iff.mpr ⟨p, hp, hpair⟩
    rw [hset w] at this
    cases this

theorem Held.page_of_holds {h : Held} {hit : Page → Bool} (hh : h.holds hit = true) : h.page ≠ none := by
  simp only [Held.holds, Bool.and_eq_true] at hh
  rw [Held.page_eq_some.mpr ⟨hh.1, rfl⟩]
  exact (by nofun)

/-- A lookup that finds nothing has looked where the pair could be. -/
theorem Translation.Lawful.lacks_of_lookup {ok : DomId → Prop} {t : Translation} {d : DomId} {f : Fpn} (h : t.Lawful ok)
    (hmiss : (t.lookup d f).1 = none) : t.Lacks d f := by
  unfold lookup at hmiss
  split at hmiss
  · next i hi =>
    have := List.find?_some hi
    exact absurd hmiss (Held.page_of_holds this)
  · next hfixed =>
    dsimp only at hmiss
    split at hmiss
    · next hw => exact absurd hmiss (Held.page_of_holds hw)
    · next hw0 =>
      split at hmiss
      · next hw => exact absurd hmiss (Held.page_of_holds hw)
      · next hw1 =>
        refine h.lacks hfixed fun w => ?_
        cases w
        · simpa [SetRow.way] using hw0
        · simpa [SetRow.way] using hw1

/-- A miss that starts a walk finds fewer than four listed and none for its pair (R58). -/
theorem missPlace_start {t : Translation} {d : DomId} {f : Fpn} (h : missPlace t d f = .start) :
    t.walkFor d f = none ∧ t.walks.length < 4 := by
  unfold missPlace at h
  split at h
  · split at h <;> cases h
  · next hnone =>
    split at h
    · next hlt => exact ⟨hnone, hlt⟩
    · cases h

/-- A walk starts for a pair that has none and that no buffer holds (R51, R57). -/
theorem startWalk_calm {d : DomId} {f : Fpn} (hnew : s.xlat.walkFor d f = none) (hlt : s.xlat.walks.length < 4)
    (hmiss : s.xlat.Lawful (Bufferable s) → s.xlat.Lacks d f) (ws : List Tag) (lock : Bool) :
    Calm s (startWalk d f ws lock s) := by
  have fresh : ∀ w ∈ s.xlat.walks, w.pair ≠ (d, f) := by
    intro w hw
    have := List.find?_eq_none.mp hnew w hw
    simpa [Walk.pair] using this
  unfold startWalk
  refine Calm.trans (t := s.onXlat _) ⟨⟨onXlat_traffic s _, .of_eq rfl, id, id, fun h => ?_, fun h => ?_⟩, .refl _, rfl, rfl,
    rfl⟩ (offer_quiet _ (by nofun)).toCalm
  · refine ⟨by simpa using hlt, ?_⟩
    simp only [State.onXlat_xlat, List.map_append, List.map_cons, List.map_nil]
    rw [List.nodup_append]
    refine ⟨h.2, by simp, fun x hx y hy => ?_⟩
    obtain ⟨w, hw, rfl⟩ := List.mem_map.mp hx
    rw [List.mem_singleton.mp hy]
    exact fresh w hw
  · refine ⟨h.single, h.domains, fun a p hp w hw => ?_, h.sets⟩
    rcases List.mem_append.mp hw with hw | hw
    · exact h.walks a p hp w hw
    · rw [List.mem_singleton.mp hw]
      exact Ne.symm (hmiss h a p hp)

theorem placeMiss_calm (tag : Tag) {d : DomId} {f : Fpn} (hmiss : s.xlat.Lawful (Bufferable s) → s.xlat.Lacks d f) :
    Calm s (placeMiss tag d f s) := by
  unfold placeMiss
  split
  · exact (joinWalk_quiet s _ _ _).toCalm
  · next hstart =>
    split
    · obtain ⟨hnew, hlt⟩ := missPlace_start hstart
      exact (setPhase_quiet s tag (ph := .walkWaiter) (by nofun)).toCalm.trans
        (startWalk_calm (setPhase tag .walkWaiter s) hnew hlt hmiss _ _)
    · exact (waitForWalk_quiet s _ _).toCalm
  · exact (waitForWalk_quiet s _ _).toCalm

theorem lookupKey_calm (tag : Tag) (t : Txn) : Calm s (lookupKey tag t s) := by
  unfold lookupKey
  dsimp only
  have found : Quiet s (s.onXlat fun _ => (s.xlat.lookup t.dom (keyFpn t.line)).2) := quiet_onXlat s (.lookup _ _ _)
  split
  · exact found.toCalm.trans (classCheck_quiet _ _ _).toCalm
  · next hnone =>
    have found' : Shrinks (s.xlat.lookup t.dom (keyFpn t.line)).2 s.xlat :=
      .of_pages (fun a => (Translation.pageAt_lookup _ _ _ a).symm) (by rw [Translation.lookup_walks])
    refine found.toCalm.trans (placeMiss_calm _ _ fun h => ?_)
    have hs := found'.lawful h (fun _ _ _ hok => hok)
    exact (hs.lacks_of_lookup hnone).mono found.shrinks

theorem repeatLookup_calm (w : WalkWaiting) : Calm s (repeatLookup w s) := by
  have gone : Quiet s (s.onXlat fun t => { t with waiting := t.waiting.erase w }) :=
    quiet_onXlat s (.of_pages (fun _ => rfl) (.refl _))
  unfold repeatLookup
  dsimp only
  split
  · exact gone.toCalm
  · split
    · exact (gone.trans (refuse_quiet _ _ _ _)).toCalm
    · split
      · exact ((gone.trans (quiet_onXlat _ (.lookup _ _ _))).trans (classCheck_quiet _ _ _)).toCalm
      · next hnone =>
        split
        · exact (gone.trans (joinWalk_quiet _ _ _ _)).toCalm
        · next hstart =>
          obtain ⟨hnew, hlt⟩ := missPlace_start hstart
          refine (gone.trans (setPhase_quiet _ w.tag (ph := .walkWaiter) (by nofun))).toCalm.trans
            (startWalk_calm _ (by exact hnew) (by exact hlt) (fun h => ?_) _ _)
          exact Translation.Lawful.lacks_of_lookup h hnone
        · exact (quiet_onXlat s (.of_pages (fun _ => rfl) (.refl _))).toCalm

theorem admitKey_calm (tag : Tag) (t : Txn) : Calm s (admitKey tag t s) :=
  .ite (lookupKey_calm s _ _) (refuse_quiet s _ _ _).toCalm

theorem startTxn_calm (tag : Tag) : Calm s (startTxn tag s) := by
  unfold startTxn
  split
  · exact .refl s
  · next x _ =>
    dsimp only
    have hregion : Quiet s (onSlot tag (fun y => { y with region := some (regionOf x.txn.line) }) s) :=
      onSlot_quiet s tag (fun _ => rfl) fun _ h => h
    refine hregion.toCalm.trans ?_
    split
    · exact (refuse_quiet _ _ _ _).toCalm
    · exact (Quiet.ite (refuse_quiet _ _ _ _) (servePlain_quiet _ _ _)).toCalm
    · exact .ite (admitKey_calm _ _ _) (refuse_quiet _ _ _ _).toCalm
    · exact (Quiet.ite (refuse_quiet _ _ _ _) (.ite (refuse_quiet _ _ _ _) (.ite (refuse_quiet _ _ _ _)
        (serveMap_quiet _ _ _)))).toCalm
    · exact (Quiet.ite (refuse_quiet _ _ _ _) (.ite (refuse_quiet _ _ _ _) (.ite (refuse_quiet _ _ _ _)
        (serveRaw_quiet _ _ _)))).toCalm

/-! ## Insertions -/

/-- A page comes to a place, over the page that was there: a pair that no other place holds, of a domain that may have pages
buffered, with no walk, and in the Set Buffer in its set and of a DATA class (R51, R53, R54). -/
theorem Translation.Lawful.insert {ok : DomId → Prop} {t t' : Translation} (h : t.Lawful ok) {b : Place} {p : Page}
    (hlacks : ∀ a q, a ≠ b → t'.pageAt a = some q → q.pair ≠ p.pair) (hb : t'.pageAt b = some p)
    (hrest : ∀ a q, a ≠ b → t'.pageAt a = some q → t.pageAt a = some q) (hok : ok p.dom)
    (hwalks : ∀ w ∈ t'.walks, w ∈ t.walks ∧ w.pair ≠ p.pair)
    (hset : ∀ i w, b = .inr (i, w) → (setIndex p.dom p.fpn).toNat = i.val ∧ p.cls ≠ .key) : t'.Lawful ok := by
  refine ⟨fun x y q r hq hr hpair => ?_, fun x q hq => ?_, fun x q hq w hw => ?_, fun i w q hq => ?_⟩
  · by_cases hx : x = b
    · by_cases hy : y = b
      · rw [hx, hy]
      · rw [hx, hb] at hq
        cases hq
        exact absurd hpair.symm (hlacks y r hy hr)
    · by_cases hy : y = b
      · rw [hy, hb] at hr
        cases hr
        exact absurd hpair (hlacks x q hx hq)
      · exact h.single x y q r (hrest x q hx hq) (hrest y r hy hr) hpair
  · by_cases hx : x = b
    · rw [hx, hb] at hq
      cases hq
      exact hok
    · exact h.domains x q (hrest x q hx hq)
  · by_cases hx : x = b
    · rw [hx, hb] at hq
      cases hq
      exact (hwalks w hw).2
    · exact h.walks x q (hrest x q hx hq) w (hwalks w hw).1
  · by_cases hx : .inr (i, w) = b
    · rw [hx, hb] at hq
      cases hq
      exact hset i w hx.symm
    · exact h.sets i w q (hrest _ q hx hq)

/-- The choice of a victim moves used marks alone (R55). -/
theorem Translation.victim_pages {t t' : Translation} {i : Fin 16} (h : t.victim = some (i, t')) :
    (∀ a, t'.pageAt a = t.pageAt a) ∧ t'.walks = t.walks := by
  have cleared : ∀ a, t.clearUsed.pageAt a = t.pageAt a := by
    intro a
    rcases a with j | ⟨j, w⟩
    · simp only [pageAt, clearUsed, Fin.getElem_fin, Vector.getElem_map]
      split <;> rfl
    · cases w <;> rfl
  unfold victim at h
  split at h
  · cases h; exact ⟨fun _ => rfl, rfl⟩
  · split at h
    · cases h; exact ⟨fun _ => rfl, rfl⟩
    · split at h
      · cases h; exact ⟨cleared, rfl⟩
      · cases h

/-- An insertion into the Fixed Buffer puts the page at one place and leaves the others (R55). -/
theorem Translation.insertFixed_pages {t t' : Translation} {p : Page} {lock : Bool} (h : t.insertFixed p lock = some t') :
    ∃ i, (∀ a, t'.pageAt a = if a = .inl i then some p else t.pageAt a) ∧ t'.walks = t.walks := by
  unfold insertFixed at h
  split at h
  · next i u hv =>
    obtain ⟨hpages, hwalks⟩ := victim_pages hv
    cases h
    exact ⟨i, fun a => by rw [pageAt_onFixed, hpages]; rfl, hwalks⟩
  · cases h

/-- An insertion into the Set Buffer puts the page into one way of its set and leaves the other places (R54). -/
theorem Translation.insertSet_pages (t : Translation) (p : Page) :
    ∃ w, (∀ a, (t.insertSet p).pageAt a = if a = .inr ((setIndex p.dom p.fpn).toFin, w) then some p else t.pageAt a) ∧
      (t.insertSet p).walks = t.walks := by
  have row : ∀ r : SetRow, ∃ w, ∀ v, ((if r.way0.valid = false then { r with way0 := .ofPage p, recentOne := false }
      else if r.way1.valid = false then { r with way1 := .ofPage p, recentOne := true }
      else if r.recentOne then { r with way0 := .ofPage p, recentOne := false }
      else { r with way1 := .ofPage p, recentOne := true } : SetRow).way v).page = if v = w then some p else (r.way v).page := by
    intro r
    split
    · exact ⟨false, fun v => by cases v <;> rfl⟩
    · split
      · exact ⟨true, fun v => by cases v <;> rfl⟩
      · split
        · exact ⟨false, fun v => by cases v <;> rfl⟩
        · exact ⟨true, fun v => by cases v <;> rfl⟩
  obtain ⟨w, hw⟩ := row (t.setAt (setIndex p.dom p.fpn))
  refine ⟨w, fun a => ?_, rfl⟩
  unfold insertSet
  rcases a with i | ⟨i, v⟩
  · rfl
  · rw [pageAt_onSet]
    by_cases hi : i = (setIndex p.dom p.fpn).toFin
    · rw [if_pos hi, hi, hw, pageAt_setAt]
      simp
    · rw [if_neg hi, if_neg (by simp [hi])]

/-- A page that comes to one place, the others as they were, keeps the laws where the pair is nowhere yet. -/
theorem Translation.Lawful.insert_at {ok : DomId → Prop} {t t' : Translation} (h : t.Lawful ok) {b : Place} {p : Page}
    (hpages : ∀ a, t'.pageAt a = if a = b then some p else t.pageAt a) (hwalks : t'.walks = t.walks)
    (hlacks : t.Lacks p.dom p.fpn) (hok : ok p.dom) (hnone : ∀ w ∈ t.walks, w.pair ≠ p.pair)
    (hset : ∀ i w, b = .inr (i, w) → (setIndex p.dom p.fpn).toNat = i.val ∧ p.cls ≠ .key) : t'.Lawful ok := by
  have hrest : ∀ a q, a ≠ b → t'.pageAt a = some q → t.pageAt a = some q := by
    intro a q ha hq
    rwa [hpages, if_neg ha] at hq
  refine h.insert (b := b) (fun a q ha hq => hlacks a q (hrest a q ha hq)) (by rw [hpages, if_pos rfl]) hrest hok
    (fun w hw => ?_) hset
  rw [hwalks] at hw
  exact ⟨hw, hnone w hw⟩

/-- A walk's page is inserted after a quiet operation, where no place and no walk has its pair (R51, R53). -/
theorem insertPage_calm {u : State} (hquiet : Quiet s u) {p : Page}
    (hlacks : s.xlat.Lawful (Bufferable s) → u.xlat.Lacks p.dom p.fpn) (hok : Bufferable u p.dom)
    (hnone : ∀ w ∈ u.xlat.walks, w.pair ≠ p.pair) (lock : Bool) : Calm s (insertPage p lock u) := by
  have put {t : Translation} (hw : t.walks = u.xlat.walks)
      (hlaw : s.xlat.Lawful (Bufferable s) → t.Lawful (Bufferable u)) : Calm s (u.onXlat fun _ => t) := by
    have hwalks (h : WalksOk s.xlat) : WalksOk t := by
      unfold WalksOk
      rw [hw]
      exact hquiet.walks h
    exact ⟨⟨hquiet.traffic.trans (onXlat_traffic u _), hquiet.slots, hquiet.queue, hquiet.entry, hwalks, hlaw⟩,
      hquiet.waiting, hquiet.updates, hquiet.fills, hquiet.roomOrder⟩
  unfold insertPage
  split
  · split
    · next t ht =>
      obtain ⟨i, hpages, hwalks⟩ := Translation.insertFixed_pages ht
      exact put hwalks fun h => (hquiet.buffers h).insert_at hpages hwalks (hlacks h) hok hnone (by nofun)
    · exact (hquiet.trans (raise_quiet u _)).toCalm
  · next hkind =>
    obtain ⟨w, hpages, hwalks⟩ := Translation.insertSet_pages u.xlat p
    refine put hwalks fun h => (hquiet.buffers h).insert_at hpages hwalks (hlacks h) hok hnone fun i v hi => ?_
    cases hi
    have hcls : p.cls ≠ .key := by
      intro hk
      simp [hk] at hkind
    exact ⟨rfl, hcls⟩

theorem Desc.page_pair {x : Desc} {d : DomId} {f : Fpn} {e : Epoch} {p : Page} (h : x.page d f e = some p) : p.pair = (d, f) := by
  unfold Desc.page at h
  split at h
  · split at h
    · cases h
    · obtain ⟨life, -, rfl⟩ := Option.map_eq_some_iff.mp h
      rfl
    · cases h
      rfl
  · cases h

/-- A walk's completion (R60): the walk leaves, its waiters are served, and its page comes to a place that no place and no walk
disputes. -/
theorem finishWalk_calm {w : Walk} (hw : w ∈ s.xlat.walks) (hlive : live s = true) (line : Line) :
    Calm s (finishWalk w line s) := by
  unfold finishWalk
  dsimp only
  generalize hpage : (Desc.ofBits (lineDescs line)[descIndex w.fpn]).page w.dom w.fpn (domEpoch s w.dom) = page
  have hleft : Quiet s (s.onXlat fun t => { t with
      walks := t.walks.filter fun v => !(v.dom == w.dom && v.fpn == w.fpn)
      waiting := t.waiting.map fun v => { v with released := true } }) :=
    quiet_onXlat s (.of_pages (fun _ => rfl) (List.filter_sublist.map _))
  generalize hl : (s.onXlat fun t => { t with
      walks := t.walks.filter fun v => !(v.dom == w.dom && v.fpn == w.fpn)
      waiting := t.waiting.map fun v => { v with released := true } }) = left at hleft
  have hgone : ∀ v ∈ left.xlat.walks, v.pair ≠ w.pair := by
    intro v hv
    rw [← hl] at hv
    have := (List.mem_filter.mp hv).2
    simp only [Bool.not_eq_true', Bool.and_eq_false_iff, beq_eq_false_iff_ne] at this
    intro hpair
    rcases this with h | h
    · exact h (congrArg Prod.fst hpair)
    · exact h (congrArg Prod.snd hpair)
  have hserved := Quiet.foldl (fun u tag => serveWaiter_quiet u page tag) w.waiters left
  have hanswered : Quiet left (if w.lock then answerLock (lockAnswer page w.stale (domState s w.dom))
      (w.waiters.foldl (serveWaiter page) left) else w.waiters.foldl (serveWaiter page) left) :=
    .ite (hserved.trans (answerLock_quiet _ _)) hserved
  generalize (if w.lock then answerLock (lockAnswer page w.stale (domState s w.dom))
      (w.waiters.foldl (serveWaiter page) left) else w.waiters.foldl (serveWaiter page) left) = answered at hanswered
  have hall := hleft.trans hanswered
  split
  · next p =>
    split
    · next hc =>
      have hpair : p.pair = w.pair := Desc.page_pair hpage
      have hbuf : Bufferable answered = Bufferable s := hall.traffic.bufferable
      have hdom : p.dom = w.dom := congrArg Prod.fst hpair
      have hfpn : p.fpn = w.fpn := congrArg Prod.snd hpair
      have hlacks : s.xlat.Lawful (Bufferable s) → answered.xlat.Lacks p.dom p.fpn := by
        intro hlaw
        refine Translation.Lacks.mono (t := s.xlat) (fun a q hq => ?_) hall.shrinks
        rw [hdom, hfpn]
        exact Ne.symm (hlaw.walks a q hq w hw)
      refine insertPage_calm s hall hlacks ?_ (fun v hv => ?_) w.lock
      · rw [hbuf, hdom]
        exact ⟨hlive, hc.2⟩
      · obtain ⟨u, hu, huv⟩ := hanswered.shrinks.mem_walk hv
        rw [hpair, ← huv]
        exact hgone u hu
    · exact hall.toCalm
  · exact hall.toCalm

end Key

end Sys2Proof.Machine

/-! PROOFS. What the Entry Unit, the Map Unit and arriving bursts keep of the laws of lists and buffers. -/

namespace Sys2Proof.Machine

/-! ## The Entry Unit -/

section Entry

variable (s : State)

theorem offerPart_quiet (p : PartUpdate) : Quiet s (offerPart p s) := quiet_onMaps s rfl rfl rfl

/-- What the judgement of a component write that passes has found (R103, R104). -/
theorem judgeComponent_ok {u : EntryUnit} {t : Txn} {life : Lifecycle} {x : Custodian} {a : CompAction}
    (h : judgeComponent u t life = .ok (x, a)) : u.domain = some t.dom ∧
      (a = .first → u.list.length < 32 ∧ (u.list.find? fun e => e.dom == t.dom && e.fpn == keyFpn t.line) = none) ∧
      (a = .combineFirst ∨ a = .combine → ∃ e, (u.list.find? fun e => e.dom == t.dom && e.fpn == keyFpn t.line) = some e ∧
        e.firstSet.getLsbD (keyPageIndex t.line).toNat = true) := by
  unfold judgeComponent at h
  dsimp only at h
  split at h
  · cases h
  next hdom =>
  split at h
  · cases h
  split at h
  · cases h
  split at h
  · cases h
  next hphase =>
  cases h
  refine ⟨by simpa using hdom, ?_⟩
  unfold judgePhase at hphase
  split at hphase
  · next hnone =>
    split at hphase
    · split at hphase
      · next hlen =>
        cases hphase
        exact ⟨fun _ => ⟨hlen, hnone⟩, by simp⟩
      · cases hphase
    · cases hphase
  · next e hsome =>
    split at hphase
    · split at hphase
      · cases hphase
        simp
      · cases hphase
    · split at hphase
      · cases hphase
      · split at hphase
        · next hbit =>
          cases hphase
          exact ⟨by simp, fun _ => ⟨e, hsome, hbit⟩⟩
        · cases hphase
    · split at hphase
      · cases hphase
      · split at hphase
        · next hbit =>
          cases hphase
          simp only [Bool.and_eq_true] at hbit
          exact ⟨by simp, fun _ => ⟨e, hsome, hbit.1⟩⟩
        · cases hphase

/-- The combining write that begins is of a line in its page's first-line set (R104). -/
theorem EntryUnit.Lawful.setCombine {u : EntryUnit} (h : u.Lawful) {e : EntryRec} {c : CompOp}
    (hfind : (u.list.find? fun e => e.dom == c.dom && e.fpn == c.fpn) = some e)
    (hbit : e.firstSet.getLsbD c.line.toNat = true) : ({ u with work := some (.component c) } : EntryUnit).Lawful := by
  refine h.setWork fun c' hc' _ x hx hd hf => ?_
  cases hc'
  rw [(find?_entry_iff h.nodup _ _ x).mpr ⟨hx, hd, hf⟩] at hfind
  cases hfind
  exact hbit

/-- A component write that has passed its judgement is carried out (R105 to R107). -/
theorem beginComponent_quiet {tag : Tag} {t : Txn} {life : Lifecycle} (bpn : Bpn) {x : Custodian} {a : CompAction}
    (h : judgeComponent s.entry t life = .ok (x, a)) : Quiet s (beginComponent tag t bpn x a s) := by
  obtain ⟨hdom, hfirst, hcombine⟩ := judgeComponent_ok h
  unfold beginComponent
  dsimp only
  have taken : Quiet s (setPhase tag .entryTaken s) := setPhase_quiet s tag (by nofun)
  refine taken.trans ?_
  cases a
  case first =>
    obtain ⟨hlen, hnone⟩ := hfirst rfl
    have added (u : State) (e : EntryRec) (op : CompOp) (hu : u.entry.Lawful → ({ u.entry with
        list := u.entry.list ++ [e], work := some (.component op) } : EntryUnit).Lawful) :
        Quiet u (u.onEntry fun v => { v with list := v.list ++ [e], work := some (.component op) }) := quiet_onEntry u hu
    refine Quiet.trans (added _ _ _ fun hl => ?_) (offerPart_quiet _ _)
    obtain ⟨h1, h2, h3, h4⟩ := hl
    refine ⟨by simp only [List.length_append, List.length_singleton]; exact hlen, ?_, ?_, ?_⟩
    · simp only [List.map_append, List.map_cons, List.map_nil]
      rw [List.nodup_append]
      refine ⟨h2, by simp, fun y hy z hz hyz => ?_⟩
      obtain ⟨e, he, rfl⟩ := List.mem_map.mp hy
      rw [List.mem_singleton.mp hz, Prod.mk.injEq] at hyz
      have := List.find?_eq_none.mp hnone e he
      simp [hyz.1, hyz.2] at this
    · intro e he
      rcases List.mem_append.mp he with he | he
      · exact h3 e he
      · rw [List.mem_singleton.mp he]
        exact ⟨hdom, by simp⟩
    · intro c hc hcomb
      cases hc
      cases hcomb
  case line =>
    refine Quiet.trans (quiet_onEntry _ fun hl => hl.setWork fun c hc hcomb => ?_) (offer_quiet _ (by nofun))
    cases hc
    cases hcomb
  case combineFirst =>
    obtain ⟨e, he, hbit⟩ := hcombine (.inl rfl)
    refine Quiet.trans (onEntryRec_phase_quiet _ _ _ _) (Quiet.trans (quiet_onEntry _ fun hl => ?_) (offerPart_quiet _ _))
    exact hl.setCombine (e := { e with phase := .second })
      (findEntry_onEntryRec_self (setPhase tag .entryTaken s) (fun e => { e with phase := .second }) (fun _ => ⟨rfl, rfl⟩) he)
      hbit
  case combine =>
    obtain ⟨e, he, hbit⟩ := hcombine (.inr rfl)
    exact Quiet.trans (quiet_onEntry _ fun hl => hl.setCombine he hbit) (offer_quiet _ (by nofun))

theorem beginEntry_quiet (x : Option Custodian) (e : EntryRec) (st : FinStage) (rest : List (DomId × Fpn)) :
    Quiet s (beginEntry x e st rest s) := by
  have offers (u : State) (w : EntryWork) (p : PartUpdate) (hw : ∀ c, some w ≠ some (.component c)) :
      Quiet u (offerPart p (setWork (some w) u)) := (setWork_quiet u hw).trans (offerPart_quiet _ _)
  unfold beginEntry
  dsimp only
  split
  · exact (onEntryRec_phase_quiet s _ _ _).trans (offers _ _ _ (by nofun))
  · exact offers _ _ _ (by nofun)
  · exact (setWork_quiet s (by nofun)).trans (beginWait_quiet _ (by nofun))
  · exact offers _ _ _ (by nofun)
  · exact offers _ _ _ (by nofun)
  · exact offers _ _ _ (by nofun)

theorem advanceFin_quiet (x : Option Custodian) (l : List (DomId × Fpn)) : Quiet s (advanceFin x l s) := by
  induction l with
  | nil => exact (setWork_quiet s (by nofun)).trans (raise_quiet _ _)
  | cons p l ih =>
    unfold advanceFin
    split
    · exact ih
    · split
      · exact ih
      · exact beginEntry_quiet s _ _ _ _

theorem beginFin_quiet (x : Option Custodian) : Quiet s (beginFin x s) := advanceFin_quiet s _ _

theorem advanceAbandon_quiet (l : List PartUpdate) : Quiet s (advanceAbandon l s) := by
  cases l
  · exact setWork_quiet s (by nofun)
  · exact (setWork_quiet s (by nofun)).trans (offerPart_quiet _ _)

theorem dropComponent_quiet (c : CompOp) : Quiet s (dropComponent c s) :=
  ((refuse_quiet s _ _ _).trans (endWait_quiet _ _)).trans (setWork_quiet _ (by nofun))

theorem partComplete_quiet : Quiet s (partComplete s) := by
  unfold partComplete
  split
  · next c hc =>
    split
    · split
      · exact (setStage_quiet s hc _).trans (offer_quiet _ (by nofun))
      · exact (setStage_quiet s hc _).trans (offer_quiet _ (by nofun))
      · exact .refl s
    · exact dropComponent_quiet s _
  · split
    · exact ((removeEntry_quiet s _ _).trans (raise_quiet _ _)).trans (advanceFin_quiet _ _ _)
    · exact (removeEntry_quiet s _ _).trans (advanceFin_quiet _ _ _)
    · exact advanceFin_quiet s _ _
  · exact advanceAbandon_quiet s _
  · exact .refl s

theorem failPage_quiet (p : DomId × Fpn) : Quiet s (failPage s p) :=
  .ite ((removeEntry_quiet s _ _).trans (raise_quiet _ _)) (.refl s)

theorem partFailed_quiet (pages : List (DomId × Fpn)) : Quiet s (partFailed pages s) := by
  unfold partFailed
  dsimp only
  refine Quiet.trans (Quiet.foldl (fun u p => failPage_quiet u p) pages s) ?_
  split
  · exact dropComponent_quiet _ _
  · exact advanceFin_quiet _ _ _
  · exact advanceAbandon_quiet _ _
  · exact .refl _

theorem kernelRetires_quiet (pages : List (DomId × Fpn)) : Quiet s (kernelRetires pages s) := by
  unfold kernelRetires
  dsimp only
  have gone : Quiet s (s.onEntry fun u => { u with list := u.list.filter fun e => !pages.contains (e.dom, e.fpn) }) :=
    quiet_onEntry s fun h => h.filter _
  refine gone.trans ?_
  split
  · split
    · split
      · exact dropComponent_quiet _ _
      · exact dropComponent_quiet _ _
      · exact .refl _
    · exact .refl _
  · exact .ite ((endWait_quiet _ _).trans (advanceFin_quiet _ _ _)) (.refl _)
  · exact .refl _

theorem takeOp_quiet : Quiet s (takeOp s) := quiet_onEntry s fun h => h.congr rfl rfl rfl

end Entry

/-! ## The laws of the Map Unit (R33, R36, R44) -/

/-- The Fill List places that an Update List entry holds (R36). -/
def UpdateEntry.room (v : UpdateEntry) : Nat := if v.state = .writing true then v.fills.length else 0

theorem MapUnit.reserved_eq (m : MapUnit) : m.reserved = (m.updates.map UpdateEntry.room).sum := rfl

/-- UpdateLaw, FillLaw and MapLaw of a Map Unit and the makers that wait. -/
structure MapsOk (m : MapUnit) (ws : List Waiter) : Prop where
  length : m.updates.length ≤ 8
  nodup : (m.updates.map fun v => v.line).Nodup
  fills : m.fills.length + m.reserved ≤ 48
  room : ∀ k ∈ m.roomOrder, ∃ v ∈ m.updates, v.line = k
  order : m.roomOrder.Nodup
  writing : ∀ v ∈ m.updates, v.line ∈ m.roomOrder → v.state = .writing false
  waits : ws.Nodup
  reads : ∀ k, .updateRead k ∈ ws → ∃ v ∈ m.updates, v.line = k ∧ v.state = .reading none

/-- The laws of the Map Unit in a state. -/
def MapLaws (s : State) : Prop := MapsOk s.maps s.back.waiting

theorem mapLaws_iff (s : State) : MapLaws s ↔ UpdateLaw s ∧ FillLaw s ∧ MapLaw s :=
  ⟨fun ⟨h1, h2, h3, h4, h5, h6, h7, h8⟩ => ⟨⟨h1, h2⟩, h3, h4, h5, h6, h7, h8⟩,
    fun ⟨⟨h1, h2⟩, h3, h4, h5, h6, h7, h8⟩ => ⟨h1, h2, h3, h4, h5, h6, h7, h8⟩⟩

/-- If the sum over entries of different lines grows, it does so by what the entry of one line adds. -/
theorem sum_map_le_add {l : List UpdateEntry} {a b : UpdateEntry → Nat} {k : MapLine} {n : Nat}
    (hnodup : (l.map fun v => v.line).Nodup) (hother : ∀ v ∈ l, v.line ≠ k → b v ≤ a v)
    (hself : ∀ v ∈ l, v.line = k → b v ≤ a v + n) : (l.map b).sum ≤ (l.map a).sum + n := by
  induction l with
  | nil => simp
  | cons v l ih =>
    rw [List.map_cons, List.nodup_cons] at hnodup
    simp only [List.map_cons, List.sum_cons]
    by_cases hv : v.line = k
    · have hrest : (l.map b).sum ≤ (l.map a).sum := by
        refine List.sum_le_sum fun w hw => hother w (.tail _ hw) fun hwk => hnodup.1 ?_
        rw [hv, ← hwk]
        exact List.mem_map_of_mem hw
      have := hself v (.head _) hv
      omega
    · have := ih hnodup.2 (fun w hw => hother w (.tail _ hw)) (fun w hw => hself w (.tail _ hw))
      have := hother v (.head _) hv
      omega

/-- The entry of a line that leaves takes its places with it. -/
theorem sum_filter_add_room_le {l : List UpdateEntry} {u : UpdateEntry} (hu : u ∈ l) :
    ((l.filter fun v => !(v.line == u.line)).map UpdateEntry.room).sum + u.room ≤ (l.map UpdateEntry.room).sum := by
  induction l with
  | nil => cases hu
  | cons v l ih =>
    simp only [List.map_cons, List.sum_cons]
    have hsub : ((l.filter fun v => !(v.line == u.line)).map UpdateEntry.room).sum ≤ (l.map UpdateEntry.room).sum :=
      (List.filter_sublist.map _).sum_le_sum fun _ _ => Nat.zero_le _
    by_cases hv : v.line = u.line
    · rw [List.filter_cons_of_neg (by simp [hv])]
      rcases List.mem_cons.mp hu with rfl | hu
      · omega
      · have := ih hu
        omega
    · rw [List.filter_cons_of_pos (by simp [hv]), List.map_cons, List.sum_cons]
      rcases List.mem_cons.mp hu with rfl | hu
      · exact absurd rfl hv
      · have := ih hu
        omega

/-- The entry of one line changed. -/
def UpdateEntry.onLine (k : MapLine) (g : UpdateEntry → UpdateEntry) (v : UpdateEntry) : UpdateEntry := if v.line == k then g v else v

namespace MapsOk

variable {m : MapUnit} {ws : List Waiter}

/-- An entry of a line is the one that is listed for it. -/
theorem eq_of_line (h : MapsOk m ws) {u v : UpdateEntry} (hu : u ∈ m.updates) (hv : v ∈ m.updates) (hline : v.line = u.line) :
    v = u := List.inj_on_of_nodup_map h.nodup hv hu hline

/-- What waits may leave, and any maker but an update's line read may come. -/
theorem waitsKept (h : MapsOk m ws) {ws' : List Waiter} (hw : WaitsKept ws ws') : MapsOk m ws' :=
  ⟨h.length, h.nodup, h.fills, h.room, h.order, h.writing, hw.1 h.waits, fun k hk => h.reads k (hw.2 k hk)⟩

/-- The laws ask of the Map Unit the Update List, the order for room and, of the Fill List, its length. -/
theorem congr (h : MapsOk m ws) {m' : MapUnit} (hu : m'.updates = m.updates) (hr : m'.roomOrder = m.roomOrder)
    (hf : m'.fills.length ≤ m.fills.length) : MapsOk m' ws := by
  obtain ⟨h1, h2, h3, h4, h5, h6, h7, h8⟩ := h
  have hres : m'.reserved = m.reserved := by unfold MapUnit.reserved; rw [hu]
  exact ⟨hu ▸ h1, hu ▸ h2, by omega, by rw [hu, hr]; exact h4, hr ▸ h5, by rw [hu, hr]; exact h6, h7, by rw [hu]; exact h8⟩

/-- The entry of one line changes: it holds at most `n` places more, for which there is room, and is as what waits asks. -/
theorem change (h : MapsOk m ws) {k : MapLine} {g : UpdateEntry → UpdateEntry} (hline : ∀ v, (g v).line = v.line) (n : Nat)
    (hn : m.fills.length + m.reserved + n ≤ 48) (hroom : ∀ v ∈ m.updates, v.line = k → (g v).room ≤ v.room + n)
    (hwriting : k ∈ m.roomOrder → ∀ v, (g v).state = .writing false)
    (hreads : .updateRead k ∈ ws → ∀ v, (g v).state = .reading none) :
    MapsOk { m with updates := m.updates.map (.onLine k g) } ws := by
  obtain ⟨h1, h2, h3, h4, h5, h6, h7, h8⟩ := h
  have self : ∀ v, v.line = k → UpdateEntry.onLine k g v = g v := fun v hv => if_pos (by simp [hv])
  have other : ∀ v, v.line ≠ k → UpdateEntry.onLine k g v = v := fun v hv => if_neg (by simpa using hv)
  generalize UpdateEntry.onLine k g = f at self other
  have hf : ∀ v, (f v).line = v.line := by
    intro v
    by_cases hv : v.line = k
    · rw [self v hv, hline]
    · rw [other v hv]
  have keeps : ∀ j, (∃ v ∈ m.updates, v.line = j) → ∃ v ∈ m.updates.map f, v.line = j := by
    rintro j ⟨v, hv, rfl⟩
    exact ⟨f v, List.mem_map_of_mem hv, hf v⟩
  refine ⟨by simpa using h1, ?_, ?_, fun j hj => keeps j (h4 j hj), h5, ?_, h7, ?_⟩
  · simpa [Function.comp_def, hf] using h2
  · have hsum := sum_map_le_add (a := UpdateEntry.room) (b := UpdateEntry.room ∘ f) (k := k) (n := n) h2
      (fun v _ hv => by simp [other v hv]) (fun v hv hk => by simpa [self v hk] using hroom v hv hk)
    have hres := m.reserved_eq
    show m.fills.length + ((m.updates.map f).map UpdateEntry.room).sum ≤ 48
    rw [List.map_map]
    omega
  · intro v hv hvr
    obtain ⟨w, hw, rfl⟩ := List.mem_map.mp hv
    rw [hf] at hvr
    by_cases hk : w.line = k
    · rw [self w hk]
      exact hwriting (hk ▸ hvr) w
    · rw [other w hk]
      exact h6 w hw hvr
  · intro j hj
    obtain ⟨v, hv, rfl, hstate⟩ := h8 j hj
    refine ⟨f v, List.mem_map_of_mem hv, hf v, ?_⟩
    by_cases hk : v.line = k
    · rw [self v hk]
      exact hreads (hk ▸ hj) v
    · rw [other v hk]
      exact hstate

/-- An entry in neither WRITING without room nor READING with its read to enter waits for nothing. -/
theorem not_waiting (h : MapsOk m ws) {u : UpdateEntry} (hu : u ∈ m.updates) (hw : u.state ≠ .writing false)
    (hr : u.state ≠ .reading none) : u.line ∉ m.roomOrder ∧ .updateRead u.line ∉ ws := by
  refine ⟨fun hk => hw (h.writing u hu hk), fun hk => ?_⟩
  obtain ⟨v, hv, hline, hstate⟩ := h.reads _ hk
  exact hr (h.eq_of_line hu hv hline ▸ hstate)

/-- A request for a free line is taken while fewer than eight are listed (R34). -/
theorem add (h : MapsOk m ws) {v : UpdateEntry} (hfree : ∀ u ∈ m.updates, u.line ≠ v.line) (hlen : m.updates.length < 8)
    (hroom : v.room = 0) : MapsOk { m with updates := m.updates ++ [v] } ws := by
  obtain ⟨h1, h2, h3, h4, h5, h6, h7, h8⟩ := h
  refine ⟨by simp only [List.length_append, List.length_singleton]; omega, ?_, ?_, fun k hk => ?_, h5, fun u hu huk => ?_, h7,
    fun k hk => ?_⟩
  · simp only [List.map_append, List.map_cons, List.map_nil]
    rw [List.nodup_append]
    refine ⟨h2, by simp, fun x hx y hy => ?_⟩
    obtain ⟨u, hu, rfl⟩ := List.mem_map.mp hx
    rw [List.mem_singleton.mp hy]
    exact hfree u hu
  · rw [MapUnit.reserved_eq] at h3 ⊢
    simpa [hroom] using h3
  · obtain ⟨u, hu, hline⟩ := h4 k hk
    exact ⟨u, List.mem_append_left _ hu, hline⟩
  · rcases List.mem_append.mp hu with hu | hu
    · exact h6 u hu huk
    · rw [List.mem_singleton.mp hu] at huk
      obtain ⟨w, hw, hline⟩ := h4 _ huk
      exact absurd hline (hfree w hw)
  · obtain ⟨u, hu, hline⟩ := h8 k hk
    exact ⟨u, List.mem_append_left _ hu, hline⟩

/-- An entry that waits for nothing leaves, and its fills may take the places it has held (R36). -/
theorem leave (h : MapsOk m ws) {u : UpdateEntry} (hu : u ∈ m.updates) (hw : u.state ≠ .writing false)
    (hr : u.state ≠ .reading none) {m' : MapUnit} (hupdates : m'.updates = m.updates.filter fun v => !(v.line == u.line))
    (horder : m'.roomOrder = m.roomOrder) (hfills : m'.fills.length ≤ m.fills.length + u.room) : MapsOk m' ws := by
  obtain ⟨hnr, hnw⟩ := h.not_waiting hu hw hr
  obtain ⟨h1, h2, h3, h4, h5, h6, h7, h8⟩ := h
  have mem : ∀ v ∈ m.updates, v.line ≠ u.line → v ∈ m'.updates := by
    intro v hv hne
    rw [hupdates]
    exact List.mem_filter.mpr ⟨hv, by simpa using hne⟩
  have sub : ∀ v ∈ m'.updates, v ∈ m.updates := by
    intro v hv
    rw [hupdates] at hv
    exact List.mem_of_mem_filter hv
  refine ⟨?_, ?_, ?_, fun k hk => ?_, horder ▸ h5, fun v hv hvk => ?_, h7, fun k hk => ?_⟩
  · rw [hupdates]
    exact (List.length_filter_le _ _).trans h1
  · rw [hupdates]
    exact h2.sublist (List.filter_sublist.map _)
  · have hsum := sum_filter_add_room_le hu
    rw [MapUnit.reserved_eq] at h3 ⊢
    rw [hupdates]
    omega
  · rw [horder] at hk
    obtain ⟨v, hv, hline⟩ := h4 k hk
    exact ⟨v, mem v hv fun hl => hnr (hl ▸ hline ▸ hk), hline⟩
  · exact h6 v (sub v hv) (horder ▸ hvk)
  · obtain ⟨v, hv, hline, hstate⟩ := h8 k hk
    exact ⟨v, mem v hv fun hl => hnw (hl ▸ hline ▸ hk), hline, hstate⟩

end MapsOk

/-- A steady operation that keeps the laws of the Map Unit as well. -/
structure Keeps (s t : State) : Prop extends Steady s t where
  maps : MapLaws s → MapLaws t

theorem Calm.maps {s t : State} (h : Calm s t) (hs : MapLaws s) : MapLaws t :=
  (hs.congr h.updates h.roomOrder (by rw [h.fills])).waitsKept h.waiting

theorem Calm.keeps {s t : State} (h : Calm s t) : Keeps s t := ⟨h.toSteady, h.maps⟩

theorem Quiet.keeps {s t : State} (h : Quiet s t) : Keeps s t := h.toCalm.keeps

namespace Keeps

theorem refl (s : State) : Keeps s s := ⟨.refl s, id⟩

theorem trans {s t u : State} (h : Keeps s t) (k : Keeps t u) : Keeps s u := ⟨h.toSteady.trans k.toSteady, k.maps ∘ h.maps⟩

theorem ite {s t u : State} {c : Prop} [Decidable c] (h : Keeps s t) (k : Keeps s u) : Keeps s (if c then t else u) := by
  split
  · exact h
  · exact k

end Keeps

/-! ## The Map Unit -/

section Maps

variable (s : State)

/-- A change to the Map Unit alone is held against its own laws alone. -/
theorem keeps_onMaps {g : MapUnit → MapUnit} (h : MapLaws s → MapsOk (g s.maps) s.back.waiting) : Keeps s (s.onMaps g) :=
  ⟨⟨onMaps_traffic s g, .of_eq rfl, id, id, id, id⟩, h⟩

theorem onUpdate_steady (k : MapLine) (g : UpdateEntry → UpdateEntry) : Steady s (onUpdate k g s) :=
  ⟨onMaps_traffic s _, .of_eq rfl, id, id, id, id⟩

theorem enterUpdateRead_steady (hroom : s.back.queue.length < 24) (k : MapLine) : Steady s (enterUpdateRead k s) :=
  (enqueueRead_quiet s hroom (mapBackLine s.seeds.pab k) .update 0#3).toSteady.trans (onUpdate_steady _ k _)

theorem beginWait_steady (w : Waiter) : Steady s (beginWait w s) := by
  refine ⟨beginWait_traffic s _, .of_eq rfl, fun h => ?_, id, id, id⟩
  rw [beginWait_back]
  exact h.congr rfl rfl rfl

theorem offerUpdateRead_steady (k : MapLine) : Steady s (offer (.updateRead k) s) := by
  unfold offer
  split
  · next hmay => exact enterUpdateRead_steady s (mayEnter_lt hmay) k
  · exact beginWait_steady s _

variable {s}

/-- The line read of an entry in READING that waits for nothing enters (R34). -/
theorem enterUpdateRead_maps {k : MapLine} (hs : MapLaws s) (hentry : ∃ v ∈ s.maps.updates, v.line = k ∧ v.state = .reading none)
    (hnot : .updateRead k ∉ s.back.waiting) : MapLaws (enterUpdateRead k s) := by
  obtain ⟨u, hu, rfl, hstate⟩ := hentry
  have hnr : u.line ∉ s.maps.roomOrder := fun hk => by
    have := hs.writing u hu hk
    rw [hstate] at this
    cases this
  exact MapsOk.change hs (fun _ => rfl) 0 hs.fills (fun _ _ _ => Nat.zero_le _) (fun hk => absurd hk hnr)
    (fun hk => absurd hk hnot)

/-- The line read of an entry in READING that waits for nothing begins to wait (R34, R131). -/
theorem waitUpdateRead_maps {k : MapLine} (hs : MapLaws s) (hentry : ∃ v ∈ s.maps.updates, v.line = k ∧ v.state = .reading none)
    (hnot : .updateRead k ∉ s.back.waiting) : MapLaws (beginWait (.updateRead k) s) := by
  have hw : (beginWait (.updateRead k) s).back.waiting = s.back.waiting ++ [.updateRead k] := by
    rw [beginWait_back]
    exact if_neg hnot
  refine ⟨hs.length, hs.nodup, hs.fills, hs.room, hs.order, hs.writing, ?_, fun j hj => ?_⟩
  · rw [hw, List.nodup_append]
    exact ⟨hs.waits, by simp, fun x hx y hy hxy => hnot (by rw [← List.mem_singleton.mp hy, ← hxy]; exact hx)⟩
  · rw [hw] at hj
    rcases List.mem_append.mp hj with hj | hj
    · exact hs.reads j hj
    · cases List.mem_singleton.mp hj
      exact hentry

theorem offerUpdateRead_maps {k : MapLine} (hs : MapLaws s) (hentry : ∃ v ∈ s.maps.updates, v.line = k ∧ v.state = .reading none)
    (hnot : .updateRead k ∉ s.back.waiting) : MapLaws (offer (.updateRead k) s) := by
  unfold offer
  split
  · exact enterUpdateRead_maps hs hentry hnot
  · exact waitUpdateRead_maps hs hentry hnot

variable (s)

/-- A request may be taken only where its line is free and the list has room (R34). -/
theorem mayTake_free {m : MapUnit} {before : List UpdateRequest} {r : UpdateRequest} (h : m.mayTake before r = true) :
    (∀ u ∈ m.updates, u.line ≠ r.line) ∧ m.updates.length < 8 := by
  unfold MapUnit.mayTake at h
  simp only [Bool.and_eq_true, decide_eq_true_eq] at h
  refine ⟨fun u hu hline => ?_, lt_of_le_of_lt (Nat.le_add_right _ _) h.2⟩
  have := h.1.1
  simp only [Bool.not_eq_true', List.any_eq_false, beq_iff_eq] at this
  exact this u hu hline

/-- A request for a free line is listed, in a state that waits for no room (R33, R34). -/
theorem listUpdate_keeps {v : UpdateEntry} (hfree : ∀ u ∈ s.maps.updates, u.line ≠ v.line) (hlen : s.maps.updates.length < 8)
    (hroom : v.room = 0) : Keeps s (s.onMaps fun m => { m with updates := m.updates ++ [v] }) :=
  keeps_onMaps s fun h => h.add hfree hlen hroom

/-- A request for a free line is listed in READING and its line read offered (R34). -/
theorem listReading_keeps {k : MapLine} (o : UpdateOrigin) (hfree : ∀ u ∈ s.maps.updates, u.line ≠ k)
    (hlen : s.maps.updates.length < 8) : Keeps s (offer (.updateRead k)
      (s.onMaps fun m => { m with updates := m.updates ++ [newUpdate k o (.reading none)] })) := by
  have hlisted := listUpdate_keeps s (v := newUpdate k o (.reading none)) hfree hlen rfl
  refine ⟨hlisted.toSteady.trans (offerUpdateRead_steady _ k), fun h => offerUpdateRead_maps (hlisted.maps h) ?_ fun hk => ?_⟩
  · exact ⟨_, List.mem_append_right _ (List.mem_singleton.mpr rfl), rfl, rfl⟩
  · obtain ⟨u, hu, hline, -⟩ := h.reads k hk
    exact hfree u hu hline

/-- A request is taken into the Update List (R34, R47). -/
theorem takeUpdate_keeps {r : UpdateRequest} (hfree : ∀ u ∈ s.maps.updates, u.line ≠ r.line) (hlen : s.maps.updates.length < 8) :
    Keeps s (takeUpdate r s) := by
  have asked : Quiet s (markStale r.line (s.onMaps (MapUnit.without r))) :=
    (quiet_onMaps s (g := MapUnit.without r) rfl rfl rfl).trans (markStale_quiet _ _)
  have free {u : State} (h : Quiet s u) : (∀ v ∈ u.maps.updates, v.line ≠ r.line) ∧ u.maps.updates.length < 8 := by
    rw [h.updates]
    exact ⟨hfree, hlen⟩
  unfold takeUpdate
  dsimp only
  split
  · next tag k =>
    have phased := asked.trans (setPhase_quiet _ tag (ph := .updateListed) (by nofun))
    obtain ⟨hf, hl⟩ := free phased
    split
    · exact phased.keeps.trans (listUpdate_keeps _ hf hl rfl)
    · exact phased.keeps.trans (listReading_keeps _ _ hf hl)
  · next p =>
    obtain ⟨hf, hl⟩ := free asked
    exact asked.keeps.trans (listReading_keeps _ _ hf hl)

/-! ### Room for fills (R36) -/

/-- The head of the order leaves it. -/
theorem MapsOk.order_sublist {m : MapUnit} {ws : List Waiter} (h : MapsOk m ws) {l : List MapLine} (hl : l.Sublist m.roomOrder) :
    MapsOk { m with roomOrder := l } ws :=
  ⟨h.length, h.nodup, h.fills, fun k hk => h.room k (hl.subset hk), h.order.sublist hl,
    fun v hv hk => h.writing v hv (hl.subset hk), h.waits, h.reads⟩

/-- An entry in WRITING without room joins the order. -/
theorem MapsOk.order_append {m : MapUnit} {ws : List Waiter} (h : MapsOk m ws) {k : MapLine} (hk : k ∉ m.roomOrder)
    (hentry : ∃ v ∈ m.updates, v.line = k) (hstate : ∀ v ∈ m.updates, v.line = k → v.state = .writing false) :
    MapsOk { m with roomOrder := m.roomOrder ++ [k] } ws := by
  refine ⟨h.length, h.nodup, h.fills, fun j hj => ?_, ?_, fun v hv hvk => ?_, h.waits, h.reads⟩
  · rcases List.mem_append.mp hj with hj | hj
    · exact h.room j hj
    · rw [List.mem_singleton.mp hj]
      exact hentry
  · rw [List.nodup_append]
    exact ⟨h.order, by simp, fun x hx y hy hxy => hk (by rw [← List.mem_singleton.mp hy, ← hxy]; exact hx)⟩
  · rcases List.mem_append.mp hvk with hj | hj
    · exact h.writing v hv hj
    · exact hstate v hv (List.mem_singleton.mp hj)

/-- Room is given in order (R36): the laws held of the Map Unit with what is left of the order. -/
theorem grantRoom_steady (l : List MapLine) : Steady s (grantRoom l s) := by
  induction l generalizing s with
  | nil => exact ⟨onMaps_traffic s _, .of_eq rfl, id, id, id, id⟩
  | cons k rest ih =>
    unfold grantRoom
    split
    · exact ih s
    · split
      · exact ((onUpdate_steady s k _).trans (beginWait_steady _ _)).trans (ih _)
      · exact ⟨onMaps_traffic s _, .of_eq rfl, id, id, id, id⟩

theorem grantRoom_maps (l : List MapLine) (h : MapsOk { s.maps with roomOrder := l } s.back.waiting) : MapLaws (grantRoom l s) := by
  induction l generalizing s with
  | nil => exact h
  | cons k rest ih =>
    have htail : MapsOk { s.maps with roomOrder := rest } s.back.waiting := h.order_sublist (List.sublist_cons_self k rest)
    unfold grantRoom
    split
    · exact ih s htail
    · next u hu =>
      obtain ⟨hmem, hline⟩ : u ∈ s.maps.updates ∧ u.line = k := by
        refine ⟨List.mem_of_find?_eq_some hu, ?_⟩
        simpa using List.find?_some hu
      have hstate : u.state = .writing false := h.writing u hmem (by rw [hline]; exact .head _)
      split
      · next hroom =>
        refine ih _ ?_
        have hchanged : MapsOk ({ (onUpdate k (fun v => { v with state := .writing true }) s).maps with roomOrder := rest })
            s.back.waiting := by
          refine htail.change (k := k) (fun _ => rfl) u.fills.length hroom (fun v hv hk => ?_) (fun hk => ?_) (fun hk => ?_)
          · rw [htail.eq_of_line hmem hv (hk.trans hline.symm)]
            exact Nat.le_add_left _ _
          · exact absurd hk (List.nodup_cons.mp h.order).1
          · obtain ⟨v, hv, hvk, hreading⟩ := h.reads k hk
            rw [h.eq_of_line hmem hv (hvk.trans hline.symm), hstate] at hreading
            cases hreading
        exact hchanged.waitsKept (beginWait_quiet (onUpdate k (fun v => { v with state := .writing true }) s) (w := .updateWrite k) (by nofun)).waiting
      · exact h

/-- Room is given on to those that wait for it (R36). -/
theorem grantRoom_keeps : Keeps s (grantRoom s.maps.roomOrder s) := ⟨grantRoom_steady s _, grantRoom_maps s _⟩

/-- Fills may leave the Fill List, and the room they have held is given on (R36). -/
theorem fewerFills_keeps {g : List Fill → List Fill} (hg : ∀ l, (g l).length ≤ l.length) :
    Keeps s (let s' := s.onMaps fun m => { m with fills := g m.fills }; grantRoom s'.maps.roomOrder s') :=
  (keeps_onMaps s fun h => h.congr rfl rfl (hg _)).trans (grantRoom_keeps _)

theorem keepFills_keeps (keep : Fill → Bool) : Keeps s (keepFills keep s) := by
  unfold keepFills
  dsimp only
  have withdrawn : Quiet s (if (s.maps.fills.filter keep).head? = s.maps.fills.head? then s else endWait .fill s) :=
    .ite (.refl s) (endWait_quiet s _)
  generalize (if (s.maps.fills.filter keep).head? = s.maps.fills.head? then s else endWait .fill s) = u at withdrawn
  refine withdrawn.keeps.trans ?_
  have hfills := withdrawn.fills
  rw [← hfills]
  exact fewerFills_keeps u (g := fun l => l.filter keep) fun l => List.length_filter_le _ _

theorem dropOldestFill_keeps : Keeps s (dropOldestFill s) :=
  (endWait_quiet s .fill).keeps.trans (fewerFills_keeps _ (g := List.tail) fun l => by simp)

theorem sendFill_keeps (hroom : s.back.queue.length < 24) {x : Fill} (hx : s.maps.fills.head? = some x) (key : LineKey) :
    Keeps s (sendFill x key s) := by
  unfold sendFill
  dsimp only
  have sent := enqueueWrite_quiet s hroom (keyBackLine s.seeds.pab x.bpn (BitVec.ofNat 6 x.next)) .fill
    (encipher key (keyBackLine s.seeds.pab x.bpn (BitVec.ofNat 6 x.next)) zeroLine)
  split
  · refine (sent.trans (endWait_quiet _ .fill)).keeps.trans (keeps_onMaps _ fun h => h.congr rfl rfl ?_)
    show (_ :: s.maps.fills.tail).length ≤ s.maps.fills.length
    rw [List.head?_eq_some_iff] at hx
    obtain ⟨l, hl⟩ := hx
    simp [hl]
  · exact sent.keeps.trans (dropOldestFill_keeps _)

/-! ### Results and line writes (R36 to R43) -/

/-- An entry whose line read is under way takes its result, and room or a place in the order for it (R36). -/
theorem enterWriting_keeps {u : UpdateEntry} (hu : u ∈ s.maps.updates) (hr : ∃ i, u.state = .reading (some i))
    (stored result : Line) (fills : List Fill) (held : Bool) (removes : List (DomId × Fpn)) :
    Keeps s (enterWriting u.line stored result fills held removes s) := by
  obtain ⟨i, hi⟩ := hr
  have hwaits (h : MapLaws s) := MapsOk.not_waiting h hu (by rw [hi]; nofun) (by rw [hi]; nofun)
  unfold enterWriting
  dsimp only
  split
  · next hempty =>
    refine Keeps.trans (keeps_onMaps s fun h => ?_) (beginWait_quiet _ (w := .updateWrite u.line) (by nofun)).keeps
    refine MapsOk.change h (fun _ => rfl) 0 h.fills (fun v _ _ => ?_) (fun hk => absurd hk (hwaits h).1)
      (fun hk => absurd hk (hwaits h).2)
    rw [List.isEmpty_iff.mp hempty]
    exact Nat.zero_le _
  · refine Keeps.trans (keeps_onMaps s (g := fun m => { m with
      updates := m.updates.map (.onLine u.line fun v => { v with
        state := .writing false, stored := stored, result := result, fills := fills, held := held, removes := removes })
      roomOrder := m.roomOrder ++ [u.line] }) fun h => ?_) (grantRoom_keeps _)
    have hset := MapsOk.change h (g := fun v => { v with
        state := .writing false, stored := stored, result := result, fills := fills, held := held, removes := removes })
      (fun _ => rfl) 0 h.fills (fun _ _ _ => Nat.zero_le _) (fun hk => absurd hk (hwaits h).1) (fun hk => absurd hk (hwaits h).2)
    refine hset.order_append (hwaits h).1 ⟨_, List.mem_map_of_mem hu, ?_⟩ fun v hv hline => ?_
    · simp [UpdateEntry.onLine]
    · obtain ⟨w, -, rfl⟩ := List.mem_map.mp hv
      by_cases hw : w.line = u.line <;> simp_all [UpdateEntry.onLine]

/-! ### Arrivals and line writes (R36 to R43) -/

/-- An entry that waits for nothing leaves the list. -/
theorem leaveUpdates_keeps {u : UpdateEntry} (hu : u ∈ s.maps.updates) (hw : u.state ≠ .writing false)
    (hr : u.state ≠ .reading none) : Keeps s (leaveUpdates u.line s) :=
  keeps_onMaps s fun h => h.leave hu hw hr rfl rfl (Nat.le_add_right _ _)

theorem updateArrived_keeps {u : UpdateEntry} (hu : u ∈ s.maps.updates) (hr : ∃ i, u.state = .reading (some i)) (stored : Line) :
    Keeps s (updateArrived u stored s) := by
  unfold updateArrived
  dsimp only
  split
  · split
    · exact .refl s
    · exact enterWriting_keeps s hu hr _ _ _ _ _
  · split
    · exact enterWriting_keeps s hu hr _ _ _ _ _
    · obtain ⟨i, hi⟩ := hr
      exact (leaveUpdates_keeps s hu (by rw [hi]; nofun) (by rw [hi]; nofun)).trans (partFailed_quiet _ _).keeps

theorem reportHeld_quiet (tag : Tag) : Quiet s (reportHeld tag s) := by
  unfold reportHeld
  split
  · exact .refl s
  · exact report_quiet s _

theorem handOn_quiet (u : UpdateEntry) : Quiet s (handOn u s) := by
  unfold handOn
  split
  · next tag _ =>
    dsimp only
    have demapped := Quiet.foldl (fun v (p : DomId × Fpn) => pageDemap_quiet v p.1 p.2) (changedPairs u.line u.stored u.result) s
    have answered := (demapped.trans (kernelRetires_quiet _ u.removes)).trans (respondDone_quiet _ tag)
    exact .ite (answered.trans (reportHeld_quiet _ _)) answered
  · exact (Quiet.foldl (fun v (c : PartChange) => quiet_onXlat v (.setLife _ c.dom c.fpn c.life)) _ s).trans (partComplete_quiet _)

/-- The line write of an entry with room enters, and its fills take its room (R36). -/
theorem sendUpdate_keeps (hroom : s.back.queue.length < 24) {u : UpdateEntry} (hu : u ∈ s.maps.updates)
    (hstate : u.state = .writing true) (key : LineKey) : Keeps s (sendUpdate u key s) := by
  unfold sendUpdate
  dsimp only
  have sent := (enqueueWrite_quiet s hroom (mapBackLine s.seeds.pab u.line) .update
    (encipher key (mapBackLine s.seeds.pab u.line) u.result)).trans (endWait_quiet _ (.updateWrite u.line))
  refine Keeps.trans (sent.keeps.trans (keeps_onMaps _ (g := fun m => { m with
    updates := m.updates.filter fun v => !(v.line == u.line)
    together := m.requests.filter fun q => q.line == u.line || m.together.contains q
    fills := m.fills ++ u.fills }) fun h => h.leave hu (by rw [hstate]; nofun) (by rw [hstate]; nofun) rfl rfl ?_))
    (handOn_quiet _ u).keeps
  show (s.maps.fills ++ u.fills).length ≤ s.maps.fills.length + u.room
  rw [List.length_append, UpdateEntry.room, if_pos hstate]

theorem writeFill_keeps : Keeps s (writeFill s) := by
  unfold writeFill
  split
  · exact .refl s
  · next x l hl =>
    refine .ite ?_ (.refl s)
    split
    · exact dropOldestFill_keeps s
    · split
      · next h => exact sendFill_keeps s (mayEnter_lt h) (by rw [hl]; rfl) _
      · exact (beginWait_quiet s (by nofun)).keeps

/-- A WAITING merge goes on to read its line (R47). -/
theorem releaseMerge_keeps (k : MapLine) : Keeps s (releaseMerge k s) := by
  unfold releaseMerge
  split
  · next u hu =>
    split
    · next hc =>
      obtain ⟨hmem, hline⟩ : u ∈ s.maps.updates ∧ u.line = k := ⟨List.mem_of_find?_eq_some hu, by simpa using List.find?_some hu⟩
      have hwaits (h : MapLaws s) := MapsOk.not_waiting h hmem (by rw [hc.2.1]; nofun) (by rw [hc.2.1]; nofun)
      rw [hline] at hwaits
      refine ⟨(onUpdate_steady s k _).trans (offerUpdateRead_steady _ k), fun h => offerUpdateRead_maps ?_ ?_ (hwaits h).2⟩
      · exact MapsOk.change h (fun _ => rfl) 0 h.fills (fun _ _ _ => Nat.zero_le _) (fun hk => absurd hk (hwaits h).1)
          (fun hk => absurd hk (hwaits h).2)
      · exact ⟨_, List.mem_map_of_mem hmem, by simp [hline]⟩
    · exact .refl s
  · exact .refl s

end Maps

/-! ## Bursts -/

section Bursts

variable (s : State)

theorem takeBurst_quiet (x : Burst) : Quiet s (takeBurst x s) := quiet_onBack s (fun h => h.congr rfl rfl rfl) (.refl _)

theorem frontRead_quiet (x : Slot) (b : BackLine) (line : Line) : Quiet s (frontRead x b line s) := by
  unfold frontRead
  dsimp only
  split
  · split
    · exact refuse_quiet s _ _ _
    · split
      · exact respond_quiet s _ _ _
      · exact offerWrite_quiet s _ _ _
  · split
    · exact .refl s
    · exact respond_quiet s _ _ _
  · split
    · exact respond_quiet s _ _ _
    · exact offerWrite_quiet s _ _ _
  · exact respond_quiet s _ _ _

theorem walkArrives_calm {w : Walk} (hw : w ∈ s.xlat.walks) (hlive : live s = true) (x : Burst) : Calm s (walkArrives w x s) := by
  unfold walkArrives
  split
  · exact (takeBurst_quiet s x).toCalm.trans (finishWalk_calm (takeBurst x s) hw hlive _)
  · exact (takeBurst_quiet s x).toCalm

theorem updateArrives_keeps {u : UpdateEntry} (hu : u ∈ s.maps.updates) (hr : ∃ i, u.state = .reading (some i)) (x : Burst) :
    Keeps s (updateArrives u x s) := by
  unfold updateArrives
  split
  · exact (takeBurst_quiet s x).keeps.trans (updateArrived_keeps (takeBurst x s) (by exact hu) hr _)
  · exact (takeBurst_quiet s x).keeps

theorem combineArrives_quiet {c : CompOp} (hc : s.entry.work = some (.component c)) (x : Burst) : Quiet s (combineArrives c x s) := by
  unfold combineArrives
  have taken := takeBurst_quiet s x
  split
  · exact (taken.trans (setStage_quiet (takeBurst x s) (by exact hc) _)).trans (offer_quiet _ (by nofun))
  · exact (taken.trans (refuse_quiet _ _ _ _)).trans (setWork_quiet _ (by nofun))

variable {s}

theorem combineAwaiting_work {id : Nat} {c : CompOp} (h : combineAwaiting id s = some c) : s.entry.work = some (.component c) := by
  unfold combineAwaiting at h
  split at h
  · next hc =>
    split at h
    · cases h
      exact hc
    · cases h
  · cases h

theorem updateAwaiting_reading {id : Nat} {u : UpdateEntry} (h : updateAwaiting id s = some u) :
    u ∈ s.maps.updates ∧ ∃ i, u.state = .reading (some i) :=
  ⟨List.mem_of_find?_eq_some h, id, by simpa using List.find?_some h⟩

theorem walkAwaiting_mem {id : Nat} {w : Walk} (h : walkAwaiting id s = some w) : w ∈ s.xlat.walks := List.mem_of_find?_eq_some h

variable (s)

/-- A read burst reaches its origin (R136, R138). -/
theorem readArrives_keeps (hlive : live s = true) (x : Burst) : Keeps s (readArrives x s) := by
  have taken := (takeBurst_quiet s x).keeps
  unfold readArrives
  split
  · split
    · exact taken.trans (frontRead_quiet _ _ _ _).keeps
    · exact taken
  · split
    · next w hw => exact (walkArrives_calm s (walkAwaiting_mem hw) hlive x).keeps
    · exact taken
  · split
    · next u hu =>
      obtain ⟨hmem, hr⟩ := updateAwaiting_reading hu
      exact updateArrives_keeps s hmem hr x
    · exact taken
  · split
    · next c hc => exact (combineArrives_quiet s (combineAwaiting_work hc) x).keeps
    · exact taken
  · exact taken
  · exact taken

end Bursts

end Sys2Proof.Machine

/-! PROOFS. Every step keeps the bounds and the distinctness of the lists (R2, R3, R33, R36, R44, R57, R101, R129, R133). -/

namespace Sys2Proof.Machine

/-! ## A transaction that starts is not FOLLOWING (R8) -/

section Started

variable (s : State)

theorem started_of_none {s : State} {tag : Tag} (h : findSlot s tag = none) : Started tag s := by
  intro x hx htag
  have := List.find?_eq_none.mp h x hx
  simp [htag] at this

theorem Quiet.started {s t : State} {tag : Tag} (h : Quiet s t) (hs : Started tag s) : Started tag t := h.slots.started hs

theorem setPhase_started (tag : Tag) {ph : Phase} (h : ph ≠ .following) : Started tag (setPhase tag ph s) := by
  intro x hx htag
  obtain ⟨y, -, rfl⟩ := List.mem_map.mp hx
  dsimp only at htag ⊢
  split at htag
  · next hy => rw [if_pos hy]; exact h
  · next hy => exact absurd htag (by simpa using hy)

theorem respond_started (tag : Tag) (st : Status) (d : Line) : Started tag (respond tag st d s) :=
  setPhase_started s tag (ph := .responding st d) (by nofun)

theorem refuse_started (tag : Tag) (k : Kind) (r : Reason) : Started tag (refuse tag k r s) := by
  unfold refuse
  split
  · next h => exact started_of_none h
  · exact (report_quiet _ _).started (respond_started s _ _ _)

theorem offerRead_started (tag : Tag) (l : BackLine) : Started tag (offerRead tag l s) :=
  (offer_quiet _ (by nofun)).started (setPhase_started s tag (ph := .readWait l) (by nofun))

theorem offerWrite_started (tag : Tag) (l : BackLine) (d : Line) : Started tag (offerWrite tag l d s) :=
  (offer_quiet _ (by nofun)).started (setPhase_started s tag (ph := .writeWait l d) (by nofun))

theorem started_ite {s t : State} {tag : Tag} {c : Prop} [Decidable c] (hs : Started tag s) (ht : Started tag t) :
    Started tag (if c then s else t) := by
  split
  · exact hs
  · exact ht

theorem serveKey_started (tag : Tag) (t : Txn) (p : Page) : Started tag (serveKey tag t p s) := by
  unfold serveKey
  dsimp only
  split
  · exact offerRead_started s _ _
  · exact started_ite (respond_started s _ _ _) (started_ite (offerWrite_started s _ _ _) (offerRead_started s _ _))

theorem classCheck_started (tag : Tag) (p : Page) : Started tag (classCheck tag p s) := by
  unfold classCheck
  split
  · next h => exact started_of_none h
  · split
    · exact refuse_started s _ _ _
    · split
      · exact refuse_started s _ _ _
      · exact started_ite (serveKey_started s _ _ _) (refuse_started s _ _ _)
      · exact serveKey_started s _ _ _
      · exact serveKey_started s _ _ _
      · exact started_ite (serveKey_started s _ _ _) (refuse_started s _ _ _)
      · exact (quiet_onEntry _ fun h => h.congr rfl rfl rfl).started (setPhase_started s tag (ph := .entryWait) (by nofun))

theorem lookupKey_started (tag : Tag) (t : Txn) : Started tag (lookupKey tag t s) := by
  unfold lookupKey
  dsimp only
  split
  · exact classCheck_started _ _ _
  · unfold placeMiss
    split
    · exact setPhase_started s tag (ph := .walkWaiter) (by nofun)
    · split
      · exact (offer_quiet _ (by nofun)).started (setPhase_started s tag (ph := .walkWaiter) (by nofun))
      · exact setPhase_started s tag (ph := .walkWaiting) (by nofun)
    · exact setPhase_started s tag (ph := .walkWaiting) (by nofun)

theorem startTxn_started (tag : Tag) : Started tag (startTxn tag s) := by
  unfold startTxn
  split
  · next h => exact started_of_none h
  · next x _ =>
    dsimp only
    split
    · exact refuse_started _ _ _ _
    · refine started_ite (refuse_started _ _ _ _) ?_
      unfold servePlain
      split
      · exact offerRead_started _ _ _
      · exact started_ite (respond_started _ _ _ _) (offerWrite_started _ _ _ _)
    · exact started_ite (started_ite (lookupKey_started _ _ _) (refuse_started _ _ _ _)) (refuse_started _ _ _ _)
    · refine started_ite (refuse_started _ _ _ _) (started_ite (refuse_started _ _ _ _) (started_ite (refuse_started _ _ _ _) ?_))
      unfold serveMap
      dsimp only
      split
      · exact started_ite (setPhase_started _ tag (ph := .mapReadHeld) (by nofun)) (offerRead_started _ _ _)
      · exact started_ite (respond_started _ _ _ _) (setPhase_started _ tag (ph := .updateWait) (by nofun))
    · refine started_ite (refuse_started _ _ _ _) (started_ite (refuse_started _ _ _ _) (started_ite (refuse_started _ _ _ _) ?_))
      unfold serveRaw
      dsimp only
      split
      · exact offerRead_started _ _ _
      · exact started_ite (respond_started _ _ _ _) (started_ite (offerWrite_started _ _ _ _) (offerRead_started _ _ _))

end Started

/-- Where the one transaction that may be FOLLOWING and the oldest to its line starts, the law of FOLLOWING transactions holds. -/
theorem SlotsKept.followingLaw_of_started {s t : State} {tag : Tag} (h : SlotsKept s t) (hstarted : Started tag t)
    (hs : ∀ l x, (s.front.slots.find? fun y => y.txn.line == l) = some x → x.phase = .following → x.txn.tag = tag) :
    FollowingLaw t := by
  obtain ⟨g, hg, hgp, hgs⟩ := h
  rw [followingLaw_iff]
  intro l x hx hphase
  have hmem := List.mem_of_find?_eq_some hx
  rw [hgs, List.find?_map] at hx
  obtain ⟨y, hy, rfl⟩ := Option.map_eq_some_iff.mp hx
  have hy' : (s.front.slots.find? fun y => y.txn.line == l) = some y := by simpa [Function.comp_def, hg] using hy
  exact hstarted _ hmem (by rw [hg]; exact hs l y hy' (hgp y hphase)) hphase

/-! ## The laws of the lists together -/

/-- The laws of ListLawsKept, in the forms that operations are held against. -/
structure Lists (s : State) : Prop where
  slots : SlotLaw s
  following : FollowingLaw s
  queue : s.back.Lawful
  entry : s.entry.Lawful
  walks : WalksOk s.xlat
  maps : MapLaws s

theorem lists_iff (s : State) : Lists s ↔ SlotLaw s ∧ QueueLaw s ∧ EntryLaw s ∧ UpdateLaw s ∧ FillLaw s ∧ WalkLaw s ∧
    FollowingLaw s ∧ MapLaw s := by
  constructor
  · rintro ⟨h1, h2, h3, h4, h5, h6⟩
    obtain ⟨hu, hf, hm⟩ := (mapLaws_iff s).mp h6
    exact ⟨h1, (queueLaw_iff s).mpr h3, (entryLaw_iff s).mpr h4, hu, hf, h5, h2, hm⟩
  · rintro ⟨h1, hq, he, hu, hf, hw, h2, hm⟩
    exact ⟨h1, h2, (queueLaw_iff s).mp hq, (entryLaw_iff s).mp he, hw, (mapLaws_iff s).mpr ⟨hu, hf, hm⟩⟩

/-- The laws of the buffers in a state (R51). -/
def Buffers (s : State) : Prop := s.xlat.Lawful (Bufferable s)

/-- An operation that keeps the laws of the lists and those of the buffers. -/
structure Sound (s t : State) : Prop where
  lists : Lists s → Lists t
  buffers : Buffers s → Buffers t

namespace Sound

theorem refl (s : State) : Sound s s := ⟨id, id⟩

theorem trans {s t u : State} (h : Sound s t) (k : Sound t u) : Sound s u := ⟨k.lists ∘ h.lists, k.buffers ∘ h.buffers⟩

theorem ite {s t u : State} {c : Prop} [Decidable c] (h : Sound s t) (k : Sound s u) : Sound s (if c then t else u) := by
  split
  · exact h
  · exact k

theorem foldl {α : Type} {f : State → α → State} (k : ∀ u a, Sound u (f u a)) (l : List α) (s : State) :
    Sound s (l.foldl f s) := by
  induction l generalizing s with
  | nil => exact refl s
  | cons a l ih => exact (k s a).trans (ih _)

end Sound

theorem Keeps.sound {s t : State} (h : Keeps s t) : Sound s t :=
  ⟨fun ⟨h1, h2, h3, h4, h5, h6⟩ => ⟨h.slots.slotLaw h1, h.slots.followingLaw h2, h.queue h3, h.entry h4, h.walks h5, h.maps h6⟩,
    h.buffers⟩

theorem Calm.sound {s t : State} (h : Calm s t) : Sound s t := h.keeps.sound

theorem Quiet.sound {s t : State} (h : Quiet s t) : Sound s t := h.keeps.sound

/-- The laws of the lists ask of a state its slots, its Back Queue, its Entry List, its walks and its Map Unit alone. -/
theorem Lists.congr {s t : State} (h : Lists s) (hslots : t.front.slots = s.front.slots) (hback : t.back = s.back)
    (hlist : t.entry.list = s.entry.list) (hdomain : t.entry.domain = s.entry.domain) (hwork : t.entry.work = s.entry.work)
    (hwalks : t.xlat.walks = s.xlat.walks) (hmaps : t.maps = s.maps) : Lists t := by
  obtain ⟨h1, h2, h3, h4, h5, h6⟩ := h
  refine ⟨?_, ?_, hback ▸ h3, h4.congr hlist hdomain hwork, ?_, ?_⟩
  · unfold SlotLaw at *
    rwa [hslots]
  · unfold FollowingLaw at *
    rwa [hslots]
  · unfold WalksOk at *
    rwa [hwalks]
  · unfold MapLaws at *
    rwa [hmaps, hback]

/-- The laws of the buffers where pages and walks stay and no domain that may have pages may no longer. -/
theorem Buffers.congr {s t : State} (h : Buffers s) (hxlat : t.xlat = s.xlat) (hok : ∀ d, Bufferable s d → Bufferable t d) :
    Buffers t := by
  unfold Buffers at *
  rw [hxlat]
  exact (Shrinks.refl _).lawful h fun _ p _ => hok p.dom

/-- Buffers without pages. -/
theorem Buffers.of_empty {t : State} (h : ∀ a, t.xlat.pageAt a = none) : Buffers t := by
  constructor
  · intro a b p q hp
    simp [h a] at hp
  · intro a p hp
    simp [h a] at hp
  · intro a p hp
    simp [h a] at hp
  · intro i w p hp
    simp [h _] at hp

section Rows

variable (s : State)

theorem onMon_sound (g : Monitor → Monitor) : Sound s (s.onMon g) :=
  ⟨fun h => h.congr rfl rfl rfl rfl rfl rfl rfl, fun h => h.congr rfl fun _ hd => hd⟩

theorem onRun_sound (g : RunClock → RunClock) : Sound s (s.onRun g) :=
  ⟨fun h => h.congr rfl rfl rfl rfl rfl rfl rfl, fun h => h.congr rfl fun _ hd => hd⟩

/-! ## The front port -/

/-- A transaction takes a slot: FOLLOWING behind an older one to its line, else it starts (R2, R8). -/
theorem accept_sound {t : Txn} (h : acceptable s t = true) : Sound s (accept t s) := by
  let taken := s.onFront fun p => { p with
    slots := p.slots ++ [{ txn := t, region := none, phase := .following, keyLost := false }] }
  obtain ⟨hlen, hnew⟩ : s.front.slots.length < 16 ∧ ∀ x ∈ s.front.slots, x.txn.tag ≠ t.tag := by
    unfold acceptable at h
    simp only [Bool.and_eq_true, decide_eq_true_eq, Bool.not_eq_true', List.any_eq_false, beq_iff_eq] at h
    exact h
  have hslots : SlotLaw s → SlotLaw taken := by
    rintro ⟨-, h2⟩
    refine ⟨by simp only [taken, State.onFront, List.length_append, List.length_singleton]; omega, ?_⟩
    simp only [taken, State.onFront, List.map_append, List.map_cons, List.map_nil]
    rw [List.nodup_append]
    refine ⟨h2, by simp, fun a ha b hb => ?_⟩
    obtain ⟨x, hx, rfl⟩ := List.mem_map.mp ha
    rw [List.mem_singleton.mp hb]
    exact hnew x hx
  have holdest (l : FrontLine) (x : Slot) (hx : (taken.front.slots.find? fun y => y.txn.line == l) = some x) :
      (s.front.slots.find? fun y => y.txn.line == l) = some x ∨ (lineBusy s t.line = false ∧ x.txn.tag = t.tag) := by
    simp only [taken, State.onFront, List.find?_append, List.find?_singleton] at hx
    rcases Option.or_eq_some_iff.mp hx with hx | ⟨hnone, hx⟩
    · exact .inl hx
    · split at hx
      · next hl =>
        cases hx
        refine .inr ⟨?_, rfl⟩
        rw [beq_iff_eq] at hl
        unfold lineBusy
        rw [List.any_eq_false]
        intro y hy
        rw [hl]
        exact List.find?_eq_none.mp hnone y hy
      · cases hx
  have hentered {u : State} (hcalm : Calm taken u) (hfollowing : Lists s → FollowingLaw u) : Sound s u := by
    refine ⟨fun hs => ?_, hcalm.buffers⟩
    exact ⟨hcalm.slots.slotLaw (hslots hs.slots), hfollowing hs, hcalm.queue hs.queue, hcalm.entry hs.entry, hcalm.walks hs.walks,
      hcalm.keeps.maps hs.maps⟩
  unfold accept
  dsimp only
  split
  · next hbusy =>
    refine hentered (.refl _) fun hs => (followingLaw_iff _).mpr fun l x hx => ?_
    rcases holdest l x hx with hx | ⟨hfree, -⟩
    · exact (followingLaw_iff s).mp hs.following l x hx
    · rw [hbusy] at hfree
      cases hfree
  · refine hentered (startTxn_calm taken t.tag) fun hs => ?_
    refine (startTxn_calm taken t.tag).slots.followingLaw_of_started (startTxn_started taken t.tag) fun l x hx hphase => ?_
    rcases holdest l x hx with hx | ⟨-, htag⟩
    · exact absurd hphase ((followingLaw_iff s).mp hs.following l x hx)
    · exact htag

theorem presentTxn_sound (t : Txn) : Sound s (presentTxn t s) := by
  unfold presentTxn
  split
  · split
    · next h => exact accept_sound s h
    · exact (quiet_onFront s (.of_eq rfl)).sound
  · exact .refl s

theorem acceptHeld_sound : Sound s (acceptHeld s) := by
  unfold acceptHeld
  split
  · next t _ =>
    split
    · next h =>
      have freed : Quiet s (s.onFront fun p => { p with held := none }) := quiet_onFront s (.of_eq rfl)
      exact freed.sound.trans (accept_sound _ h.2)
    · exact .refl s
  · exact .refl s

theorem startFollowing_sound (tag : Tag) : Sound s (startFollowing tag s) := by
  unfold startFollowing
  split
  · exact .ite (startTxn_calm s tag).sound (.refl s)
  · exact .refl s

/-- A delivery frees the slot of the oldest to its line and starts the next (R2, R8, R14). -/
theorem deliver_sound (tag : Tag) : Sound s (deliver tag s) := by
  unfold deliver
  split
  · next x hx =>
    split
    · next st data hphase =>
      split
      · next hc =>
        let freed := s.onFront fun p => { p with
          slots := p.slots.filter fun y => !(y.txn.tag == tag), response := some (responseOf x.txn st data) }
        have hslots (hs : SlotLaw s) : SlotLaw freed :=
          ⟨(List.length_filter_le _ _).trans hs.1, hs.2.sublist (List.filter_sublist.map _)⟩
        have hold (hs : Lists s) (l : FrontLine) (hl : l ≠ x.txn.line) (y : Slot)
            (hy : (freed.front.slots.find? fun z => z.txn.line == l) = some y) : y.phase ≠ .following := by
          refine (followingLaw_iff s).mp hs.following l y ?_
          rw [← hy]
          simp only [freed, State.onFront, List.find?_filter]
          refine List.find?_congr fun z hz => ?_
          by_cases htag : z.txn.tag = tag
          · have hzx : z = x := List.inj_on_of_nodup_map hs.slots.2 hz (List.mem_of_find?_eq_some hx)
              (htag.trans (tag_of_findSlot s hx).symm)
            simp [hzx, Ne.symm hl, tag_of_findSlot s hx]
          · rw [Bool.eq_iff_iff]
            simp [htag]
        have hfreed {u : State} (hcalm : Calm freed u) (hfollowing : Lists s → FollowingLaw u) : Sound s u :=
          ⟨fun hs => ⟨hcalm.slots.slotLaw (hslots hs.slots), hfollowing hs, hcalm.queue hs.queue, hcalm.entry hs.entry,
            hcalm.walks hs.walks, hcalm.keeps.maps hs.maps⟩, hcalm.buffers⟩
        change Sound s (startNext x.txn.line freed)
        unfold startNext
        split
        · next y hy =>
          split
          · refine hfreed (startTxn_calm freed y.txn.tag) fun hs => ?_
            refine (startTxn_calm freed y.txn.tag).slots.followingLaw_of_started (startTxn_started freed _) fun l z hz hphase => ?_
            by_cases hl : l = x.txn.line
            · rw [hl, hy] at hz
              cases hz
              rfl
            · exact absurd hphase (hold hs l hl z hz)
          · next hy' =>
            refine hfreed (.refl _) fun hs => (followingLaw_iff _).mpr fun l z hz => ?_
            by_cases hl : l = x.txn.line
            · rw [hl, hy] at hz
              cases hz
              exact hy'
            · exact hold hs l hl z hz
        · next hnone =>
          refine hfreed (.refl _) fun hs => (followingLaw_iff _).mpr fun l z hz => ?_
          by_cases hl : l = x.txn.line
          · rw [hl, hnone] at hz
            cases hz
          · exact hold hs l hl z hz
      · exact .refl s
    · exact .refl s
  · exact .refl s

/-! ## The Back Queue and the map -/

theorem firstReady_iff {s : State} {w : Waiter} (h : firstReady s = some w) : w ∈ s.back.waiting ∧ s.back.queue.length < 24 := by
  unfold firstReady at h
  exact ⟨List.mem_of_find?_eq_some h, hasRoom_lt (List.find?_some h)⟩

/-- The waiting maker whose turn it is leaves the waiting ones and enters. -/
theorem enterWaiting_keeps {w : Waiter} (h : firstReady s = some w) : Keeps s (enter w (endWait w s)) := by
  have hended := endWait_quiet s w
  obtain ⟨hmem, hlt⟩ := firstReady_iff h
  have hroom : (endWait w s).back.queue.length < 24 := hlt
  by_cases hw : ∃ k, w = .updateRead k
  · obtain ⟨k, rfl⟩ := hw
    refine ⟨hended.toSteady.trans (enterUpdateRead_steady _ hroom k), fun hs => ?_⟩
    exact enterUpdateRead_maps (hended.keeps.maps hs) (hs.reads k hmem) hs.waits.not_mem_erase
  · exact (hended.trans (enter_quiet _ hroom fun k hk => hw ⟨k, hk⟩)).keeps

theorem queueEntry_keeps : Keeps s (queueEntry s) := by
  unfold queueEntry
  cases h : firstReady s with
  | none => exact .refl s
  | some w =>
    have hentered : Keeps s (if live s then enter w (endWait w s) else s) := .ite (enterWaiting_keeps s h) (.refl s)
    cases w
    case updateWrite | fill | background => exact .refl s
    all_goals exact hentered

theorem completeWalk_calm : Calm s (completeWalk s) := by
  unfold completeWalk
  split
  · split
    · next w hw =>
      split
      · next h => exact walkArrives_calm s (walkAwaiting_mem hw) h.1 _
      · exact .refl s
    · exact .refl s
  · exact .refl s

theorem repeatFirst_calm : Calm s (repeatFirst s) := by
  unfold repeatFirst
  split
  · exact .ite (repeatLookup_calm s _) (.refl s)
  · exact .refl s

theorem resumeMapRead_quiet (tag : Tag) : Quiet s (resumeMapRead tag s) := by
  unfold resumeMapRead
  split
  · exact .ite (offerRead_quiet s _ _) (.refl s)
  · exact .refl s

theorem takePicked_keeps (pick : UpdatePick) : Keeps s (takePicked pick s) := by
  unfold takePicked
  split
  · split
    · next h =>
      obtain ⟨hfree, hlen⟩ := mayTake_free h.2
      exact takeUpdate_keeps s hfree hlen
    · exact .refl s
  · exact .refl s

theorem arriveUpdate_keeps : Keeps s (arriveUpdate s) := by
  unfold arriveUpdate
  split
  · split
    · next u hu =>
      obtain ⟨hmem, hr⟩ := updateAwaiting_reading hu
      exact .ite (updateArrives_keeps s hmem hr _) (.refl s)
    · exact .refl s
  · exact .refl s

theorem writeUpdate_keeps (k : MapLine) : Keeps s (writeUpdate k s) := by
  unfold writeUpdate
  split
  · next u _ hu _ =>
    split
    · next h => exact sendUpdate_keeps s (mayEnter_lt h.2.2) (List.mem_of_find?_eq_some hu) h.2.1 _
    · exact .refl s
  · exact .refl s

/-! ## Windows and key entry -/

theorem request_lawful (o : EntryOp) (u : EntryUnit) (h : u.Lawful) : (u.request o).Lawful := by
  unfold EntryUnit.request
  split
  · exact h
  · exact h.congr rfl rfl rfl

theorem lapse_quiet (x : Custodian) : Quiet s (lapse x s) := by
  refine .ite (quiet_onEntry s fun h => request_lawful _ _ ?_) (.refl s)
  cases x <;> exact h.congr rfl rfl rfl

theorem switchOn_quiet (x : Custodian) : Quiet s (switchOn x s) := by
  refine .ite (.refl s) (quiet_onEntry s fun h => ?_)
  cases x <;> exact h.congr rfl rfl rfl

theorem switchOff_quiet (x : Custodian) : Quiet s (switchOff x s) := by
  unfold switchOff
  refine .ite (quiet_onEntry s fun h => ?_) (.refl s)
  have hshut : ((s.entry.register x false).onWindow x fun _ => .reset).Lawful := by
    cases x <;> exact h.congr rfl rfl rfl
  dsimp only
  split
  · exact request_lawful _ _ hshut
  · exact hshut

theorem nextComponent_quiet : Quiet s (nextComponent s) := by
  unfold nextComponent
  split
  · unfold takeComponent
    split
    · exact takeOp_quiet s
    · split
      · exact (takeOp_quiet s).trans (refuse_quiet _ _ _ _)
      · next hok => exact (takeOp_quiet s).trans (beginComponent_quiet (takeOp s) _ (by exact hok))
  · exact .refl s

theorem arriveCombine_quiet : Quiet s (arriveCombine s) := by
  unfold arriveCombine
  split
  · split
    · next c hc => exact .ite (combineArrives_quiet s (combineAwaiting_work hc) _) (.refl s)
    · exact .refl s
  · exact .refl s

theorem nextFinalisation_quiet : Quiet s (nextFinalisation s) := by
  unfold nextFinalisation
  split
  · exact (takeOp_quiet s).trans (beginFin_quiet _ _)
  · exact .refl s

theorem completeLiveFill_quiet : Quiet s (completeLiveFill s) := by
  unfold completeLiveFill
  split
  · split
    · exact .ite ((setWork_quiet s (by nofun)).trans (offerPart_quiet _ _)) (.refl s)
    · exact .refl s
  · exact .refl s

theorem nextDeferred_quiet : Quiet s (nextDeferred s) := by
  unfold nextDeferred
  split
  · exact (takeOp_quiet s).trans (beginFin_quiet _ _)
  · exact .refl s

theorem nextAbandonment_quiet : Quiet s (nextAbandonment s) := by
  unfold nextAbandonment
  split
  · have emptied : Quiet (takeOp s) ((takeOp s).onEntry fun u => { u with list := [] }) := quiet_onEntry _ fun _ => .of_nil rfl
    exact (((takeOp_quiet s).trans emptied).trans (raiseIf_quiet _ _ _)).trans (advanceAbandon_quiet _ _)
  · exact .refl s

/-! ## The Back Controller -/

theorem BackCtl.Lawful.bank {b : BackCtl} (h : b.Lawful) (r : Fin 2) (i : Fin 8) (g : Bank → Bank) : (b.onBank r i g).Lawful :=
  h.congr rfl rfl rfl

/-- A selection changes marks and counts of requests, and lists one more in service where there is room (R133). -/
theorem BackCtl.Lawful.select {b : BackCtl} (h : b.Lawful) (hservice : b.service.length < 4) (q : BackReq) :
    (b.select q).Lawful := by
  refine h.of_sublist ?_ ?_ rfl
  · have hid : (b.select q).queue.map (fun x => x.id) = b.queue.map fun x => x.id := by
      have hpassed (x : BackReq) : x.passed.id = x.id := by
        unfold BackReq.passed
        split <;> rfl
      unfold BackCtl.select
      simp only [List.map_append, List.map_map]
      conv_rhs => rw [← List.takeWhile_append_dropWhile (p := fun x => !(x.id == q.id)) (l := b.queue)]
      rw [List.map_append]
      congr 1
      · exact List.map_congr_left fun x _ => hpassed x
      · refine List.map_congr_left fun x _ => ?_
        dsimp only [Function.comp_apply]
        split <;> rfl
    rw [hid]
  · simpa [BackCtl.select] using hservice

theorem returnRequest_ids (r : Fin 2) (l : List BackReq) : (returnRequest r l).map (fun x => x.id) = l.map fun x => x.id := by
  induction l with
  | nil => rfl
  | cons q l ih =>
    simp only [returnRequest, List.map_cons, ih]
    split <;> rfl

theorem BackCtl.Lawful.force {b : BackCtl} (h : b.Lawful) (r : Fin 2) : (b.force r).Lawful :=
  h.of_sublist (by rw [show (b.force r).queue = returnRequest r b.queue from rfl, returnRequest_ids])
    ((List.length_filter_le _ _).trans h.service) rfl

theorem BackCtl.Lawful.takeAccrual {b : BackCtl} (h : b.Lawful) (r : Fin 2) : (b.takeAccrual r).Lawful := by
  have hrank (g : Rank → Rank) : (b.onRank r g).Lawful := h.congr rfl rfl rfl
  unfold BackCtl.takeAccrual
  dsimp only
  split
  · exact (hrank _).force r
  · exact hrank _

theorem BackCtl.Lawful.accrue {b : BackCtl} (h : b.Lawful) (r : Fin 2) : (b.accrue r).Lawful := by
  have hadvance : (b.advance (b.accrualClock r)).Lawful := h.congr rfl rfl rfl
  unfold BackCtl.accrue
  split
  · exact hadvance.takeAccrual r
  · exact h.takeAccrual r

theorem BackCtl.Lawful.endRefresh {b : BackCtl} (h : b.Lawful) (r : Fin 2) : (b.endRefresh r).Lawful := by
  have hended : ((b.advance (b.refreshEndClock r)).onRank r fun k => { k with state := .normal }).Lawful := h.congr rfl rfl rfl
  unfold BackCtl.endRefresh
  dsimp only
  split
  · exact hended.force r
  · exact hended

theorem force_waiting (r : Fin 2) (b : BackCtl) : (b.force r).waiting = b.waiting := rfl

theorem takeAccrual_waiting (r : Fin 2) (b : BackCtl) : (b.takeAccrual r).waiting = b.waiting := by
  unfold BackCtl.takeAccrual
  dsimp only
  split <;> rfl

theorem accrue_waiting (r : Fin 2) (b : BackCtl) : (b.accrue r).waiting = b.waiting := by
  unfold BackCtl.accrue
  split
  · exact takeAccrual_waiting _ _
  · exact takeAccrual_waiting _ _

theorem endRefresh_waiting (r : Fin 2) (b : BackCtl) : (b.endRefresh r).waiting = b.waiting := by
  unfold BackCtl.endRefresh
  dsimp only
  split <;> rfl

/-- A change to the Back Controller that keeps its law and what waits. -/
theorem quiet_back {g : BackCtl → BackCtl} (h : s.back.Lawful → (g s.back).Lawful)
    (hw : (g s.back).waiting = s.back.waiting) : Quiet s (s.onBack g) :=
  quiet_onBack s h (by rw [hw]; exact .refl _)

theorem selectNext_quiet : Quiet s (selectNext s) := by
  unfold selectNext
  split
  · split
    · next h => exact quiet_back s (fun hl => hl.select h.2.2.2 _) rfl
    · exact .refl s
  · exact .refl s

theorem issueActivation_quiet (t : Nat) : Quiet s (issueActivation t s) := by
  unfold issueActivation
  split
  · exact quiet_back s (fun h => h.congr rfl rfl rfl) rfl
  · exact .refl s

theorem issuePrecharge_quiet (t : Nat) : Quiet s (issuePrecharge t s) := by
  unfold issuePrecharge
  split
  · exact quiet_back s (fun h => h.congr rfl rfl rfl) rfl
  · exact .refl s

theorem issueColumn_quiet (t : Nat) : Quiet s (issueColumn t s) := by
  unfold issueColumn
  split
  · split
    · refine quiet_back s (fun h => h.of_sublist ?_ ?_ rfl) rfl
      · exact List.filter_sublist.map _
      · exact (List.length_filter_le _ _).trans h.service
    · exact .refl s
  · exact .refl s

theorem issueRefresh_quiet (t : Nat) : Quiet s (issueRefresh t s) := by
  unfold issueRefresh
  split
  · exact quiet_back s (fun h => h.congr rfl rfl rfl) rfl
  · exact .refl s

theorem autoPrecharge_quiet (r : Fin 2) (i : Fin 8) : Quiet s (autoPrecharge r i s) :=
  .ite (quiet_back s (fun h => h.congr rfl rfl rfl) rfl) (.refl s)

theorem accrueRefresh_quiet (r : Fin 2) : Quiet s (accrueRefresh r s) :=
  .ite (quiet_back s (fun h => h.accrue r) (accrue_waiting r _)) (.refl s)

theorem finishRefresh_quiet (r : Fin 2) : Quiet s (finishRefresh r s) :=
  .ite (quiet_back s (fun h => h.endRefresh r) (endRefresh_waiting r _)) (.refl s)

theorem finishStartUp_quiet : Quiet s (finishStartUp s) := by
  unfold finishStartUp
  split
  · exact .ite (quiet_back s (fun h => h.congr rfl rfl rfl) rfl) (.refl s)
  · exact .refl s

theorem finishRead_keeps : Keeps s (finishRead s) := by
  unfold finishRead
  split
  · split
    · next hlive => exact readArrives_keeps s hlive _
    · exact .refl s
  · exact .refl s

end Rows

end Sys2Proof.Machine

/-! PROOFS. What the rows that are no traffic keep of the laws of lists and buffers, and the two obligations about these laws. -/

namespace Sys2Proof.Machine

/-! ## The ends of a run pulse -/

/-- The laws of lists and buffers depend on slots, Back Queue, Entry List, walks, Map Unit and buffers, and on which domains may
have pages buffered. -/
theorem Sound.of_same {s t : State} (hslots : t.front.slots = s.front.slots) (hback : t.back = s.back)
    (hentry : s.entry.Lawful → t.entry.Lawful) (hmaps : t.maps = s.maps) (hxlat : t.xlat = s.xlat)
    (hok : ∀ d, Bufferable s d → Bufferable t d) : Sound s t := by
  refine ⟨fun h => ?_, fun h => h.congr hxlat hok⟩
  have hlists : Lists { s with front := t.front } := h.congr hslots rfl rfl rfl rfl rfl rfl
  obtain ⟨h1, h2, h3, h4, h5, h6⟩ := hlists
  refine ⟨h1, h2, hback ▸ h3, hentry h4, hxlat ▸ h5, ?_⟩
  unfold MapLaws at *
  rw [hmaps, hback]
  exact h6

/-- A page that a demap leaves is none of those it is to take. -/
theorem demapBy_page {hit : Page → Bool} {s : State} {a : Place} {p : Page} (h : (demapBy hit s).xlat.pageAt a = some p) :
    hit p = false := by
  have hx : (demapBy hit s).xlat = s.xlat.demap hit := by
    unfold demapBy raiseIf raise
    split
    · split <;> rfl
    · rfl
  rw [hx, Translation.pageAt_demap] at h
  simpa using (Option.filter_eq_some_iff.mp h).2

theorem allDemap_page (s : State) (a : Place) : (allDemap s).xlat.pageAt a = none := by
  have hx : (allDemap s).xlat = { s.xlat with fixed := s.xlat.fixed.map FixedEntry.drop, sets := s.xlat.sets.map SetRow.drop } := by
    unfold allDemap raiseIf raise
    split
    · split <;> rfl
    · rfl
  rw [hx]
  rcases a with i | ⟨i, w⟩
  · simp [Translation.pageAt]
  · rw [Translation.pageAt_inr]
    cases w <;> simp [SetRow.way]

/-- One domain's record changes: the other domains may have pages buffered as before. -/
theorem bufferable_onDom {d e : DomId} {g : DomRec → DomRec} {s : State}
    (h : Bufferable s e) (hd : domIx e ≠ domIx d) : Bufferable (onDom d g s) e := by
  refine ⟨h.1, ?_⟩
  have hopen := h.2
  unfold domState at hopen ⊢
  rw [onDom_doms_of_ne hd]
  exact hopen

theorem domIx_injective {d e : DomId} (h : domIx d = domIx e) : d = e :=
  BitVec.eq_of_toNat_eq (by simpa [domIx] using congrArg Fin.val h)

/-- One domain's record changes and is OPEN if it was. -/
theorem onDom_sound {d : DomId} {g : DomRec → DomRec} {s : State} (hg : ∀ r, r.state = .opened → (g r).state = .opened) :
    Sound s (onDom d g s) := by
  refine .of_same rfl rfl id rfl rfl fun e he => ?_
  by_cases hd : domIx e = domIx d
  · cases domIx_injective hd
    refine ⟨he.1, ?_⟩
    have hopen := he.2
    unfold domState at hopen ⊢
    split
    · next hzero => rwa [if_pos hzero] at hopen
    · next hne =>
      rw [if_neg hne] at hopen
      rw [onDom_doms_self]
      exact hg _ hopen
  · exact bufferable_onDom he hd

/-- A domain's record changes and a domain demap follows: no page of it is left that could ask for it to be OPEN (R51). -/
theorem onDom_demap_sound {d : DomId} {g : DomRec → DomRec} {s u : State} (hu : Quiet (onDom d g s) u) :
    Sound s (domainDemap d u) := by
  have hall := hu.trans (domainDemap_quiet u d)
  refine ⟨fun h => hall.sound.lists (h.congr rfl rfl rfl rfl rfl rfl rfl), fun h => ?_⟩
  refine hall.shrinks.lawful h fun a p hp hok => ?_
  rw [hall.traffic.bufferable]
  refine bufferable_onDom hok fun hd => ?_
  have := demapBy_page hp
  simp [domIx_injective hd] at this

theorem endRun_sound (d : DomId) (s : State) : Sound s (endRun d s) := onDom_demap_sound (.refl _)

theorem expireLease_sound (d : DomId) (s : State) : Sound s (expireLease d s) := by
  unfold expireLease
  dsimp only
  split
  · split
    · next n _ =>
      exact (onDom_sound (g := fun x => { x with lease := n, staged := none, ending := false }) fun _ h => h).trans
        (raise_quiet _ _).sound
    · exact ((endRun_sound d s).trans (quiet_onEv _ _).sound).trans (raise_quiet _ _).sound
  · exact .refl s

theorem afterPulse_sound (s : State) : Sound s (afterPulse s) :=
  .ite (((Sound.foldl (fun u d => expireLease_sound d u) _ s).trans (lapse_quiet _ _).sound).trans (lapse_quiet _ _).sound)
    (.refl s)

theorem DomRec.pulse_state (r : DomRec) : r.pulse.state = r.state := by
  unfold DomRec.pulse
  split
  · split <;> rfl
  · rfl

/-- Every record changes, its state not: the same domains may have pages buffered. -/
theorem bufferable_of_states {s t : State} (hcab : t.cab = s.cab) (hdoms : ∀ d : Fin 64, t.doms[d].state = s.doms[d].state)
    (e : DomId) (h : Bufferable s e) : Bufferable t e := by
  obtain ⟨hlive, hopen⟩ := h
  unfold Bufferable live domState at *
  rw [hcab, hdoms]
  exact ⟨hlive, hopen⟩

theorem pulse_sound (s : State) : Sound s (pulse s) := by
  refine .ite (.of_same rfl rfl (fun h => h.congr rfl rfl rfl) rfl rfl (bufferable_of_states rfl fun d => ?_)) (.refl s)
  have : (s.doms.map DomRec.pulse)[d] = s.doms[d].pulse := Vector.getElem_map _ _
  exact (congrArg DomRec.state this).trans (DomRec.pulse_state _)

/-! ## Detections (R142, R143, R165 to R167) -/

theorem recordAlarm_sound (c : Cause) (s : State) : Sound s (recordAlarm c s) :=
  (onMon_sound s _).trans (raiseIf_quiet _ _ _).sound

theorem refuseWindows_quiet (s : State) : Quiet s (refuseWindows s) :=
  Quiet.foldl (fun u tag => refuse_quiet u tag .unready .noReason) _ s

/-- A zeroisation's reach into the main domain: no page, walk, update or fill is left (R166, R167). -/
theorem clearMainDomain_sound (s : State) : (Lists s → Lists (clearMainDomain s)) ∧ Buffers (clearMainDomain s) := by
  have hd := allDemap_quiet s
  let cleared := (((allDemap s).onXlat fun t => { t with walks := [], waiting := [] }).onMaps fun _ => .reset).onEntry fun u =>
    { u with waiting := [], work := none }
  let kept := (answerLock .state cleared).onBack fun b => { b with waiting := b.waiting.filter (survivesAlarm s) }
  let moved := kept.onCab fun c => { c with bg := if c.sub = .scrubbing then c.bg.start .scrub else c.bg.stop }
  have hmoved : Lists s → Lists moved := by
    rintro ⟨h1, h2, h3, h4, h5, h6⟩
    refine ⟨hd.slots.slotLaw h1, hd.slots.followingLaw h2, (hd.queue h3).congr rfl rfl rfl,
      ((hd.entry h4).setWork (w := none) (by nofun)).congr rfl rfl rfl, ?_, ?_⟩
    · exact ⟨Nat.zero_le _, List.nodup_nil⟩
    · refine ⟨Nat.zero_le _, List.nodup_nil, Nat.zero_le _, by nofun, List.nodup_nil, by nofun,
        (hd.waiting.1 h6.waits).filter _, fun k hk => ?_⟩
      exact absurd (List.mem_filter.mp hk).2 (by simp [survivesAlarm])
  have hrefused : Quiet moved (clearMainDomain s) := refuseWindows_quiet moved
  refine ⟨fun h => hrefused.sound.lists (hmoved h), hrefused.sound.buffers (.of_empty fun a => ?_)⟩
  have : moved.xlat.pageAt a = (allDemap s).xlat.pageAt a := by
    rcases a with i | ⟨i, w⟩
    · rfl
    · rw [Translation.pageAt_inr, Translation.pageAt_inr]
      rfl
  rw [this, allDemap_page]

theorem zeroiseCabinet_sound (s : State) : Sound s (zeroiseCabinet s) := by
  have hdestroyed (h : Lists s) : Lists (destroyKeys s) := by
    obtain ⟨h1, h2, h3, h4, h5, h6⟩ := h
    exact ⟨h1, h2, h3, .of_nil rfl, h5, h6⟩
  unfold zeroiseCabinet
  split
  · obtain ⟨hlists, hbuffers⟩ := clearMainDomain_sound (destroyKeys s)
    exact ⟨fun h => hlists (hdestroyed h), fun _ => hbuffers⟩
  · next hlive =>
    refine ⟨hdestroyed, fun h => .of_empty fun a => ?_⟩
    cases hp : s.xlat.pageAt a with
    | none => exact hp
    | some p => exact absurd (h.domains a p hp).1 hlive

theorem detect_sound (c : Cause) (s : State) : Sound s (detect c s) := by
  refine .ite ?_ (onMon_sound s _)
  exact .ite (recordAlarm_sound c s) ((recordAlarm_sound c s).trans (zeroiseCabinet_sound _))

theorem detectChannel_sound (i : Fin 8) (s : State) : Sound s (detectChannel i s) := by
  unfold detectChannel
  split
  · exact (onMon_sound s _).trans (detect_sound _ _)
  · exact .refl s

theorem detectMesh_sound (i : Fin 2) (s : State) : Sound s (detectMesh i s) :=
  .ite ((onMon_sound s _).trans (detect_sound _ _)) (.refl s)

theorem registerLid_sound (isOpen : Bool) (s : State) : Sound s (registerLid isOpen s) :=
  .ite ((onMon_sound s _).trans (detect_sound _ _)) (onMon_sound s _)

theorem registerPanel_sound (pressed : Bool) (s : State) : Sound s (registerPanel pressed s) :=
  .ite ((onMon_sound s _).trans (detect_sound _ _)) (onMon_sound s _)

/-! ## Bursts and background operations -/

/-- Domains may have pages buffered as before where the main domain works on and the cabinet does not leave READY. -/
theorem onCab_sound {s : State} {g : StateUnit → StateUnit} (hlive : live s = true → live (s.onCab g) = true)
    (hready : s.cab.cabinet = .ready → (g s.cab).cabinet = .ready) : Sound s (s.onCab g) := by
  refine .of_same rfl rfl id rfl rfl fun e ⟨hl, hopen⟩ => ⟨hlive hl, ?_⟩
  unfold domState at hopen ⊢
  split
  · next hzero =>
    rw [if_pos hzero] at hopen
    refine if_pos (hready ?_)
    by_contra hc
    rw [if_neg hc] at hopen
    cases hopen
  · next hne => rwa [if_neg hne] at hopen

theorem reportWrite_sound (q : BackReq) (s : State) : Sound s (reportWrite q s) := by
  unfold reportWrite
  split
  · split
    · exact (setWork_quiet s (by nofun)).sound
    · exact .refl s
  · exact .ite (onCab_sound id id) (.refl s)
  · exact .refl s

theorem writeDriven_sound (x : Burst) (s : State) : Sound s (writeDriven x s) := by
  have hmem : Sound s (s.onMem fun m => m.writeLine x.req.line x.req.data x.req.masks) :=
    .of_same rfl rfl id rfl rfl fun _ h => h
  exact (hmem.trans (takeBurst_quiet _ x).sound).trans (quiet_back _ (fun h => h.bank _ _ _) rfl).sound

theorem finishWrite_sound (s : State) : Sound s (finishWrite s) := by
  unfold finishWrite
  split
  · exact .ite ((writeDriven_sound _ s).trans (reportWrite_sound _ _)) (.refl s)
  · exact .refl s

theorem offerBackground_sound (s : State) : Sound s (offerBackground s) := by
  unfold offerBackground
  split
  · split
    · split
      · next h =>
        have hroom : (endWait .background s).back.queue.length < 24 := mayEnter_lt (s := s) h
        exact ((endWait_quiet s _).trans (enqueueWrite_quiet _ hroom _ _ _)).sound.trans (onCab_sound id id)
      · exact (beginWait_quiet s (by nofun)).sound
    · exact .refl s
  · exact .refl s

theorem finishScrub_sound (s : State) : Sound s (finishScrub s) :=
  .ite ((onCab_sound id id).trans (raise_quiet _ _).sound) (.refl s)

theorem finishClear_sound (s : State) : Sound s (finishClear s) := by
  have hseeds : Sound s (s.onSeeds fun x => { x with clearPending := false }) := .of_same rfl rfl id rfl rfl fun _ h => h
  exact .ite ((hseeds.trans (onCab_sound id fun _ => rfl)).trans (raise_quiet _ _).sound) (.refl s)

/-! ## Power -/

/-- Buffers at their reset values hold no page (R71). -/
theorem pageAt_reset (a : Place) : Translation.reset.pageAt a = none := by
  rcases a with i | ⟨i, w⟩
  · simp [Translation.pageAt, Translation.reset, FixedEntry.page, Held.page, Held.reset]
  · rw [Translation.pageAt_inr]
    cases w <;> simp [SetRow.way, Translation.reset, Held.page, Held.reset]

/-- A main domain at its reset values keeps every law, whatever the Entry List holds (R71, R180). -/
theorem sound_of_reset {s t : State} (hslots : t.front.slots = []) (hqueue : t.back.queue = []) (hservice : t.back.service = [])
    (hwaiting : t.back.waiting = []) (hentry : s.entry.Lawful → t.entry.Lawful) (hxlat : t.xlat = .reset)
    (hmaps : t.maps = .reset) : Sound s t := by
  refine ⟨fun h => ?_, fun _ => .of_empty fun a => ?_⟩
  · refine ⟨?_, ?_, ⟨by simp [hqueue], by simp [hservice], by simp [hqueue], by simp [hqueue]⟩, hentry h.entry, ?_, ?_⟩
    · simp [SlotLaw, hslots]
    · rw [followingLaw_iff]
      simp [hslots]
    · simp [WalksOk, hxlat, Translation.reset]
    · unfold MapLaws
      rw [hmaps, hwaiting]
      exact ⟨Nat.zero_le _, List.nodup_nil, Nat.zero_le _, by nofun, List.nodup_nil, by nofun, List.nodup_nil, by nofun⟩
  · rw [hxlat, pageAt_reset]

theorem mainReset_entry {s : State} (h : s.entry.Lawful) : (mainReset s).entry.Lawful :=
  (h.setWork (w := none) (by nofun)).congr rfl rfl rfl

theorem losePower_sound (s : State) : Sound s (losePower s) := sound_of_reset rfl rfl rfl rfl mainReset_entry rfl rfl

theorem assertReset_sound (s : State) : Sound s (assertReset s) := sound_of_reset rfl rfl rfl rfl mainReset_entry rfl rfl

theorem returnPower_sound (strap : BitVec 2) (s : State) : Sound s (returnPower strap s) :=
  .ite (sound_of_reset rfl rfl rfl rfl mainReset_entry rfl rfl) (sound_of_reset rfl rfl rfl rfl mainReset_entry rfl rfl)

theorem endReset_sound (strap : BitVec 2) (s : State) : Sound s (endReset strap s) :=
  sound_of_reset rfl rfl rfl rfl mainReset_entry rfl rfl

theorem coldState_sound (s : State) : Sound s (coldState s) :=
  sound_of_reset rfl rfl rfl rfl (fun _ => .of_nil rfl) rfl rfl

theorem connectBattery_sound (pgood : Bool) (strap : BitVec 2) (s : State) : Sound s (connectBattery pgood strap s) :=
  .ite ((coldState_sound s).trans (returnPower_sound strap _)) (coldState_sound s)

/-! ## Commands of the link -/

section Rules

variable (s : State)

theorem takeFrame_sound {f : Frame} {n : Nat} {rule : State → Reply} (hrule : ∀ u, live u = true → Sound u (rule u).2) :
    Sound s (takeFrame f n rule s) :=
  takeFrame_keeps (P := Sound s) (fun u g h => h.trans (quiet_onLink u g).sound) (fun u hlive h => h.trans (hrule u hlive)) (.refl s)

theorem configure_sound {f : Frame} {item maxIndex : Nat} {taken : State → Bool} {rule : Nat → State → Reply}
    (hrule : ∀ i u, Sound u (rule i u).2) : Sound s (configure f item maxIndex taken rule s) :=
  configure_keeps (P := Sound s) (fun u g h => h.trans (quiet_onLink u g).sound) (fun i u _ _ h => h.trans (hrule i u)) (.refl s)

theorem readAnswer_sound (addr : BitVec 7) (count : Nat) : Sound s (readAnswer addr count s) := by
  unfold readAnswer
  split
  · split <;> exact (quiet_onLink s _).sound
  · exact (quiet_onLink s _).sound

theorem takeUnknown_sound (code : Byte) (f : Frame) : Sound s (takeUnknown code f s) :=
  .ite (.refl s) (takeFrame_sound s fun u _ => .refl u)

theorem ruleResume_sound : Sound s (ruleResume s).2 := by
  unfold ruleResume
  split
  · exact (onCab_sound id fun _ => rfl).trans (quiet_onEntry _ (request_lawful _ _)).sound
  · exact .refl s

theorem beginClear_sound (h : s.cab.cabinet ≠ .ready) : Sound s (beginClear s) := by
  have hseeds : Sound s (s.onSeeds fun x => { x with clearPending := true }) := .of_same rfl rfl id rfl rfl fun _ h => h
  exact hseeds.trans (onCab_sound id fun hr => absurd hr h)

theorem ruleClearMap_sound : Sound s (ruleClearMap s).2 := by
  unfold ruleClearMap
  split
  · next hcab =>
    exact (quiet_onEntry s fun _ => .of_nil rfl).sound.trans (beginClear_sound _ (fun hr => by
      have : CabState.restore = .ready := hcab.symm.trans hr
      cases this))
  · exact .refl s

/-- A domain that is not OPEN takes any record and seed. -/
theorem onDom_not_open_sound {d : DomId} {g : DomRec → DomRec} {u : State} (hstate : domState s d ≠ .opened)
    (hslots : u.front.slots = s.front.slots) (hback : u.back = s.back) (hentry : u.entry = s.entry) (hmaps : u.maps = s.maps)
    (hxlat : u.xlat = s.xlat) (hdoms : u.doms = (onDom d g s).doms) (hcab : u.cab = s.cab) : Sound s u := by
  refine .of_same hslots hback (fun h => hentry ▸ h) hmaps hxlat fun e he => ?_
  have hed : domIx e ≠ domIx d := fun hix => hstate (domIx_injective hix ▸ he.2)
  have := bufferable_onDom (g := g) he hed
  unfold Bufferable live domState at *
  rw [hdoms, hcab]
  exact this

theorem ruleEnrol_sound (args : List Byte) : Sound s (ruleEnrol args s).2 := by
  unfold ruleEnrol
  split
  · exact .refl s
  · next d _ =>
    split
    · exact .refl s
    · split
      · exact .refl s
      · next hstate =>
        have hvacant : domState s d = .vacant := by simpa using hstate
        exact onDom_not_open_sound s (d := d) (g := fun r => { r with state := .closed })
          (by rw [hvacant]; decide) rfl rfl rfl rfl rfl rfl rfl

theorem ruleOpenRun_sound (args : List Byte) : Sound s (ruleOpenRun args s).2 := by
  unfold ruleOpenRun
  split
  · exact .refl s
  · repeat' split
    any_goals exact .refl s
    exact onDom_sound (g := fun r => { r with state := .opened, lease := argWord args 1, staged := none, ending := false })
      fun _ _ => rfl

theorem ruleExtendRun_sound (args : List Byte) : Sound s (ruleExtendRun args s).2 := by
  unfold ruleExtendRun
  split
  · exact .refl s
  · repeat' split
    any_goals exact .refl s
    exact onDom_sound (g := fun r => { r with staged := some (argWord args 1) }) fun _ h => h

theorem ruleCloseRun_sound (args : List Byte) : Sound s (ruleCloseRun args s).2 := by
  unfold ruleCloseRun
  split
  · exact .refl s
  · repeat' split
    any_goals exact .refl s
    exact endRun_sound _ s

theorem loseKeys_quiet (d : DomId) : Quiet s (loseKeys d s) := by
  refine quiet_onFront s ⟨Slot.erased d, fun x => ?_, fun x hx => ?_, rfl⟩
  · unfold Slot.erased
    split <;> rfl
  · unfold Slot.erased at hx
    split at hx <;> exact hx

theorem eraseDomain_sound (d : DomId) : Sound s (eraseDomain d s) := by
  have hseeds : Sound s (s.onSeeds fun x => { x with domains := x.domains.set (domIx d).val none (domIx d).isLt }) :=
    .of_same rfl rfl id rfl rfl fun _ h => h
  exact (hseeds.trans (onDom_demap_sound (loseKeys_quiet _ d))).trans (keepFills_keeps _ _).sound

theorem ruleErase_sound (args : List Byte) : Sound s (ruleErase args s).2 := by
  unfold ruleErase
  split
  · exact .refl s
  · repeat' split
    any_goals exact .refl s
    exact eraseDomain_sound s _

/-! ### Key entry and locks -/

theorem ruleSetEntry_sound (args : List Byte) : Sound s (ruleSetEntry args s).2 := by
  unfold ruleSetEntry
  split
  · exact .refl s
  · repeat' split
    any_goals exact .refl s
    next v _ _ _ _ hbusy =>
      have hnil : s.entry.list = [] := by
        by_contra hl
        exact hbusy (.inl hl)
      exact (quiet_onEntry s (g := fun u => { u with domain := v }) fun _ => .of_nil hnil).sound

theorem ruleAbandonEntry_sound : Sound s (ruleAbandonEntry s).2 := by
  unfold ruleAbandonEntry
  split
  · exact (quiet_onEntry s (request_lawful _ _)).sound
  · exact .refl s

theorem ruleReadEntry_sound (args : List Byte) : Sound s (ruleReadEntry args s).2 := by
  unfold ruleReadEntry
  dsimp only
  split
  · exact .refl s
  · split <;> exact .refl s

theorem ruleReadDomain_sound (args : List Byte) : Sound s (ruleReadDomain args s).2 := by
  unfold ruleReadDomain
  split <;> exact .refl s

/-! ### Locks and demaps (R66, R67, R69) -/

/-- A change to one entry of the Fixed Buffer that keeps its page. -/
theorem onFixed_quiet (i : Fin 16) {g : FixedEntry → FixedEntry} (hg : ∀ e, (g e).page = e.page) :
    Quiet s (s.onXlat (.onFixed i g)) := by
  refine quiet_onXlat s (.of_pages (fun a => ?_) (.refl _))
  rw [Translation.pageAt_onFixed, hg]
  split
  · next h => rw [h]; rfl
  · rfl

/-- A page that the Set Buffer is found to hold for a pair is of that pair, in a way of the pair's set. -/
theorem Translation.setHit_some {t : Translation} {d : DomId} {f : Fpn} {p : Page} (h : t.setHit d f = some p) :
    p.pair = (d, f) ∧ ∃ w, t.pageAt (.inr ((setIndex d f).toFin, w)) = some p := by
  have held {x : Held} (hx : x.holds (Page.isOf d f) = true) (hp : x.page = some p) : p.pair = (d, f) := by
    obtain ⟨q, hq, hpair⟩ := Held.holds_isOf_iff.mp hx
    rw [hp] at hq
    cases hq
    exact hpair
  unfold setHit at h
  dsimp only at h
  split at h
  · next hw => exact ⟨held hw h, false, by rw [pageAt_setAt]; exact h⟩
  · split at h
    · next hw => exact ⟨held hw h, true, by rw [pageAt_setAt]; exact h⟩
    · cases h

/-- Where no way of the pair's set holds it, the set has no page of the pair. -/
theorem Translation.setHit_none {t : Translation} {d : DomId} {f : Fpn} (h : t.setHit d f = none) (w : Bool) :
    ((t.setAt (setIndex d f)).way w).holds (Page.isOf d f) = false := by
  unfold setHit at h
  dsimp only at h
  split at h
  · next hw => exact absurd h (Held.page_of_holds hw)
  · next hw0 =>
    split at h
    · next hw => exact absurd h (Held.page_of_holds hw)
    · next hw1 => cases w <;> simp_all [SetRow.way]

/-- What is left of a way of the set when a page has moved out of it. -/
theorem Translation.pageAt_onSet_demap (t : Translation) (i : BitVec 8) (hit : Page → Bool) (a : Place) :
    (t.onSet i (SetRow.demap hit)).pageAt a =
      if ∃ w, a = .inr (i.toFin, w) then (t.pageAt a).filter fun p => !hit p else t.pageAt a := by
  rcases a with j | ⟨j, w⟩
  · rw [pageAt_onSet_inl, if_neg (by simp)]
  · rw [pageAt_onSet]
    by_cases hj : j = i.toFin
    · rw [if_pos hj, if_pos ⟨w, by rw [hj]⟩, hj, pageAt_setAt]
      cases w <;> exact Held.demap_page hit _
    · rw [if_neg hj, if_neg (by simp [hj])]

/-- A page moves from its way into the Fixed Buffer: it stays in one place (R51, R67). -/
theorem Translation.Lawful.moveLocked {ok : DomId → Prop} {t t' : Translation} {d : DomId} {f : Fpn} {p : Page}
    (h : t.Lawful ok) (hhit : t.setHit d f = some p) (hmove : t.moveLocked p = some t') : t'.Lawful ok := by
  obtain ⟨u, hu, rfl⟩ := Option.map_eq_some_iff.mp hmove
  obtain ⟨i, hpages, hwalks⟩ := insertFixed_pages hu
  obtain ⟨hpair, w, hat⟩ := setHit_some hhit
  have hd : p.dom = d := congrArg Prod.fst hpair
  have hf : p.fpn = f := congrArg Prod.snd hpair
  have hleft : ∀ a q, a ≠ .inl i → (u.onSet (setIndex p.dom p.fpn) (SetRow.demap (Page.isOf p.dom p.fpn))).pageAt a = some q →
      t.pageAt a = some q ∧ ((∃ w, a = .inr ((setIndex p.dom p.fpn).toFin, w)) → q.pair ≠ p.pair) := by
    intro a q ha hq
    rw [pageAt_onSet_demap] at hq
    split at hq
    · obtain ⟨hq, hhit⟩ := Option.filter_eq_some_iff.mp hq
      rw [hpages, if_neg ha] at hq
      refine ⟨hq, fun _ hqp => ?_⟩
      rw [isOf_iff.mpr hqp] at hhit
      cases hhit
    · next hno =>
      rw [hpages, if_neg ha] at hq
      exact ⟨hq, fun hw => absurd hw hno⟩
  refine h.insert (b := .inl i) (p := p) (fun a q ha hq hqp => ?_) ?_ (fun a q ha hq => (hleft a q ha hq).1)
    (h.domains _ p hat) (fun v hv => ?_) (by nofun)
  · obtain ⟨hold, hne⟩ := hleft a q ha hq
    refine hne ⟨w, ?_⟩ hqp
    rw [hd, hf]
    exact h.single _ _ q p hold hat hqp
  · rw [pageAt_onSet_inl, hpages, if_pos rfl]
  · have hv' : v ∈ t.walks := hwalks ▸ hv
    exact ⟨hv', h.walks _ p hat v hv'⟩

theorem moveLocked_walks {t t' : Translation} {p : Page} (hmove : t.moveLocked p = some t') : t'.walks = t.walks := by
  obtain ⟨u, hu, rfl⟩ := Option.map_eq_some_iff.mp hmove
  obtain ⟨i, -, hwalks⟩ := Translation.insertFixed_pages hu
  exact hwalks

theorem requestLock_calm {d : DomId} {f : Fpn} (hfixed : s.xlat.fixedHit d f = none) (hset : s.xlat.setHit d f = none) :
    Calm s (requestLock d f s).2 := by
  unfold requestLock
  split
  · have joined : Quiet s (joinLock d f s) := by
      refine quiet_onXlat s ?_
      exact .mapWalks _ fun w => by split <;> rfl
    exact joined.toCalm
  · next hnew =>
    split
    · next hlt =>
      exact startWalk_calm s hnew hlt (fun h => h.lacks hfixed (Translation.setHit_none hset)) _ _
    · exact .refl s

theorem ruleLock_sound (args : List Byte) : Sound s (ruleLock args s).2 := by
  unfold ruleLock
  split
  · exact .refl s
  · unfold lockPair
    split
    · exact .refl s
    · split
      · exact .refl s
      · split
        · split
          · exact .refl s
          · exact (onFixed_quiet s _ (g := fun e => { e with lock := true }) fun _ => rfl).sound
        · next hfixed =>
          split
          · exact .refl s
          · split
            · next p hp =>
              split
              · next t ht =>
                exact ⟨fun h => h.congr rfl rfl rfl rfl rfl (moveLocked_walks ht) rfl, fun h => h.moveLocked hp ht⟩
              · exact .refl s
            · next hset => exact (requestLock_calm s hfixed hset).sound

theorem ruleUnlock_sound (args : List Byte) : Sound s (ruleUnlock args s).2 := by
  unfold ruleUnlock
  split
  · exact .refl s
  · split
    · exact (onFixed_quiet s _ (g := fun e => { e with lock := false }) fun _ => rfl).sound
    · exact .refl s

theorem ruleDemapPage_sound (args : List Byte) : Sound s (ruleDemapPage args s).2 := by
  unfold ruleDemapPage
  split
  · exact .refl s
  · exact (pageDemap_quiet s _ _).sound

theorem ruleDemapDomain_sound (args : List Byte) : Sound s (ruleDemapDomain args s).2 := by
  unfold ruleDemapDomain
  split
  · exact .refl s
  · exact (domainDemap_quiet s _).sound

theorem ruleAckTamper_sound : Sound s (ruleAckTamper s).2 := by
  unfold ruleAckTamper
  split
  · exact onMon_sound s _
  · exact .refl s

/-! ### CONFIGURE -/

theorem ruleConfigurePab_sound (args : List Byte) (i : Nat) : Sound s (ruleConfigurePab args i s).2 := by
  unfold ruleConfigurePab
  dsimp only
  split
  · exact .refl s
  · exact .of_same rfl rfl id rfl rfl fun _ h => h

theorem ruleConfigureBackTiming_sound (args : List Byte) (i : Nat) : Sound s (ruleConfigureBackTiming args i s).2 :=
  (quiet_back s (fun h => h.congr rfl rfl rfl) rfl).sound

theorem ruleConfigurePagePolicy_sound (args : List Byte) (i : Nat) : Sound s (ruleConfigurePagePolicy args i s).2 := by
  refine (quiet_back s (g := fun b => { b with timing := { b.timing with tIDLE := clamp 0 255 (valueCount args) } })
    (fun h => ?_) rfl).sound
  exact h.congr rfl rfl rfl

theorem ruleConfigureEntryLimit_sound (args : List Byte) (i : Nat) : Sound s (ruleConfigureEntryLimit args i s).2 := by
  refine (quiet_onEntry s (g := fun u => { u with limit := _ }) fun h => ?_).sound
  exact h.congr rfl rfl rfl

theorem ruleConfigureChannel_sound (args : List Byte) (i : Nat) : Sound s (ruleConfigureChannel args i s).2 := by
  unfold ruleConfigureChannel
  split
  · exact .refl s
  · exact onMon_sound s _

theorem ruleConfigureMesh_sound (args : List Byte) (i : Nat) : Sound s (ruleConfigureMesh args i s).2 := by
  unfold ruleConfigureMesh
  split
  · exact .refl s
  · exact onMon_sound s _

theorem ruleConfigureMode_sound (args : List Byte) (i : Nat) : Sound s (ruleConfigureMode args i s).2 := by
  unfold ruleConfigureMode
  repeat' split
  any_goals exact .refl s
  all_goals exact onMon_sound s _

theorem ruleConfigureScrub_sound (args : List Byte) (i : Nat) : Sound s (ruleConfigureScrub args i s).2 := by
  unfold ruleConfigureScrub
  split
  · exact .refl s
  · next on _ => exact onCab_sound (g := fun c => { c with scrubOn := on }) id id

end Rules

/-! ## Every row -/

/-- COMMISSION and RECOMMISSION make every domain VACANT without a demap: no page is left then because the laws of keys let
none be OPEN. -/
def remakesDomains : Instr → Bool
  | .commission _ | .recommission _ => true
  | _ => false

/-- Every other row keeps the laws of lists and buffers. -/
theorem exec_sound {c : Instr} (s : State) (hc : remakesDomains c = false) : ∃ t, exec c s = .next t ∧ Sound s t := by
  have hp := afterPulse_sound s
  let p := afterPulse s
  cases c
  -- front port, buffers and map
  case frontTransaction t => exact ⟨_, rfl, hp.trans (presentTxn_sound p t)⟩
  case heldTransactionAccepted => exact ⟨_, rfl, hp.trans (acceptHeld_sound p)⟩
  case followingStart tag => exact ⟨_, rfl, hp.trans (startFollowing_sound p tag)⟩
  case responseDelivery tag => exact ⟨_, rfl, hp.trans (deliver_sound p tag)⟩
  case backQueueEntry => exact ⟨_, rfl, (queueEntry_keeps s).sound⟩
  case walkCompletion => exact ⟨_, rfl, hp.trans (completeWalk_calm p).sound⟩
  case waitingLookupRepeat => exact ⟨_, rfl, hp.trans (repeatFirst_calm p).sound⟩
  case mapReadResume tag => exact ⟨_, rfl, (resumeMapRead_quiet s tag).sound⟩
  case updateTaken pick => exact ⟨_, rfl, (takePicked_keeps s pick).sound⟩
  case updateLineReadArrival => exact ⟨_, rfl, (arriveUpdate_keeps s).sound⟩
  case updateLineWrite k => exact ⟨_, rfl, (writeUpdate_keeps s k).sound⟩
  case mergeRelease k => exact ⟨_, rfl, (releaseMerge_keeps s k).sound⟩
  case fillLineWrite => exact ⟨_, rfl, (writeFill_keeps s).sound⟩
  -- run pulses, windows and key entry
  case runPulse => exact ⟨_, rfl, hp.trans (pulse_sound p)⟩
  case leaseExpiry d => exact ⟨_, rfl, expireLease_sound d s⟩
  case windowLapse x => exact ⟨_, rfl, (lapse_quiet s x).sound⟩
  case registeredSwitchOn x => exact ⟨_, rfl, hp.trans (switchOn_quiet p x).sound⟩
  case registeredSwitchOff x => exact ⟨_, rfl, hp.trans (switchOff_quiet p x).sound⟩
  case componentWrite => exact ⟨_, rfl, hp.trans (nextComponent_quiet p).sound⟩
  case combiningReadBurst => exact ⟨_, rfl, (arriveCombine_quiet s).sound⟩
  case finalisation => exact ⟨_, rfl, hp.trans (nextFinalisation_quiet p).sound⟩
  case liveZeroFillComplete => exact ⟨_, rfl, (completeLiveFill_quiet s).sound⟩
  case deferredFinalisation => exact ⟨_, rfl, hp.trans (nextDeferred_quiet p).sound⟩
  case abandonment => exact ⟨_, rfl, hp.trans (nextAbandonment_quiet p).sound⟩
  -- the Back Controller
  case selection => exact ⟨_, rfl, (selectNext_quiet s).sound⟩
  case activation t => exact ⟨_, rfl, (issueActivation_quiet s t).sound⟩
  case precharge t => exact ⟨_, rfl, (issuePrecharge_quiet s t).sound⟩
  case automaticPrecharge r i => exact ⟨_, rfl, (autoPrecharge_quiet s r i).sound⟩
  case columnCommand t => exact ⟨_, rfl, (issueColumn_quiet s t).sound⟩
  case readBurst => exact ⟨_, rfl, hp.trans (finishRead_keeps p).sound⟩
  case writeCompletion => exact ⟨_, rfl, finishWrite_sound s⟩
  case refreshAccrual r => exact ⟨_, rfl, (accrueRefresh_quiet s r).sound⟩
  case refresh t => exact ⟨_, rfl, (issueRefresh_quiet s t).sound⟩
  case refreshEnd r => exact ⟨_, rfl, (finishRefresh_quiet s r).sound⟩
  case startUpEnd => exact ⟨_, rfl, (finishStartUp_quiet s).sound⟩
  -- the Tamper Monitor
  case conversion | meshCrossing | meshMiss | monitorSecond | meshDrivePhase => exact ⟨_, rfl, onMon_sound s _⟩
  case channelDetection i => exact ⟨_, rfl, hp.trans (detectChannel_sound i p)⟩
  case meshDetection i => exact ⟨_, rfl, hp.trans (detectMesh_sound i p)⟩
  case lidRegistered isOpen => exact ⟨_, rfl, hp.trans (registerLid_sound isOpen p)⟩
  case panelRegistered pressed => exact ⟨_, rfl, hp.trans (registerPanel_sound pressed p)⟩
  -- background operations and power
  case backgroundLineOffer => exact ⟨_, rfl, offerBackground_sound s⟩
  case scrubDone => exact ⟨_, rfl, finishScrub_sound s⟩
  case clearDone => exact ⟨_, rfl, finishClear_sound s⟩
  case mainsLoss => exact ⟨_, rfl, .ite (losePower_sound s) (.refl s)⟩
  case mainsReturn strap => exact ⟨_, rfl, .ite (returnPower_sound strap s) (.refl s)⟩
  case rstAsserted =>
    refine ⟨_, rfl, ?_⟩
    split
    · exact assertReset_sound s
    · next hrow => exact onCab_sound (g := fun c => { c with rst := true }) (fun hl => by simp_all [live]) id
  case rstEnd strap =>
    refine ⟨_, rfl, .ite (endReset_sound strap s) ?_⟩
    exact onCab_sound (g := fun c => { c with rst := false }) (fun hl => by simp_all [live, State.onCab]) id
  case firstBatteryConnection pgood strap => exact ⟨_, rfl, connectBattery_sound pgood strap s⟩
  -- the link
  case answerRead addr n => exact ⟨_, rfl, readAnswer_sound s addr n⟩
  case unknown code f => exact ⟨_, rfl, takeUnknown_sound s code f⟩
  case status f => exact ⟨_, rfl, hp.trans (takeFrame_sound p fun u _ => .refl u)⟩
  case resume f => exact ⟨_, rfl, takeFrame_sound s fun u _ => ruleResume_sound u⟩
  case clearMap f => exact ⟨_, rfl, takeFrame_sound s fun u _ => ruleClearMap_sound u⟩
  case zeroise f => exact ⟨_, rfl, hp.trans (takeFrame_sound p fun u _ => detect_sound .command u)⟩
  case enrol f => exact ⟨_, rfl, takeFrame_sound s fun u _ => ruleEnrol_sound u f.args⟩
  case erase f => exact ⟨_, rfl, hp.trans (takeFrame_sound p fun u _ => ruleErase_sound u f.args)⟩
  case openRun f => exact ⟨_, rfl, hp.trans (takeFrame_sound p fun u _ => ruleOpenRun_sound u f.args)⟩
  case extendRun f => exact ⟨_, rfl, hp.trans (takeFrame_sound p fun u _ => ruleExtendRun_sound u f.args)⟩
  case closeRun f => exact ⟨_, rfl, hp.trans (takeFrame_sound p fun u _ => ruleCloseRun_sound u f.args)⟩
  case readDomain f => exact ⟨_, rfl, hp.trans (takeFrame_sound p fun u _ => ruleReadDomain_sound u _)⟩
  case readExpired f => exact ⟨_, rfl, hp.trans (takeFrame_sound p fun u _ => .refl u)⟩
  case clearExpired f => exact ⟨_, rfl, hp.trans (takeFrame_sound p fun u _ => .of_same rfl rfl id rfl rfl fun _ h => h)⟩
  case setEntry f => exact ⟨_, rfl, hp.trans (takeFrame_sound p fun u _ => ruleSetEntry_sound u _)⟩
  case abandonEntry f => exact ⟨_, rfl, hp.trans (takeFrame_sound p fun u _ => ruleAbandonEntry_sound u)⟩
  case readEntry f => exact ⟨_, rfl, hp.trans (takeFrame_sound p fun u _ => ruleReadEntry_sound u _)⟩
  case lock f => exact ⟨_, rfl, hp.trans (takeFrame_sound p fun u _ => ruleLock_sound u _)⟩
  case unlock f => exact ⟨_, rfl, hp.trans (takeFrame_sound p fun u _ => ruleUnlock_sound u _)⟩
  case demapPage f => exact ⟨_, rfl, takeFrame_sound s fun u _ => ruleDemapPage_sound u _⟩
  case demapDomain f => exact ⟨_, rfl, takeFrame_sound s fun u _ => ruleDemapDomain_sound u _⟩
  case demapAll f => exact ⟨_, rfl, takeFrame_sound s fun u _ => (allDemap_quiet u).sound⟩
  case readRefusal f => exact ⟨_, rfl, takeFrame_sound s fun u _ => .refl u⟩
  case clearRefusal f => exact ⟨_, rfl, takeFrame_sound s fun u _ => .of_same rfl rfl id rfl rfl fun _ h => h⟩
  case readTamper f => exact ⟨_, rfl, takeFrame_sound s fun u _ => .of_same rfl rfl id rfl rfl fun _ h => h⟩
  case ackTamper f => exact ⟨_, rfl, takeFrame_sound s fun u _ => ruleAckTamper_sound u⟩
  case readResults f => exact ⟨_, rfl, takeFrame_sound s fun u _ => .refl u⟩
  case clearEvents f => exact ⟨_, rfl, hp.trans (takeFrame_sound p fun u _ => .of_same rfl rfl id rfl rfl fun _ h => h)⟩
  case configurePab f => exact ⟨_, rfl, configure_sound s fun i u => ruleConfigurePab_sound u _ i⟩
  case configureBackTiming f => exact ⟨_, rfl, configure_sound s fun i u => ruleConfigureBackTiming_sound u _ i⟩
  case configurePagePolicy f => exact ⟨_, rfl, configure_sound s fun i u => ruleConfigurePagePolicy_sound u _ i⟩
  case configureRunCompare f => exact ⟨_, rfl, configure_sound s fun _ u => .of_same rfl rfl id rfl rfl fun _ h => h⟩
  case configureEntryLimit f => exact ⟨_, rfl, configure_sound s fun i u => ruleConfigureEntryLimit_sound u _ i⟩
  case configureChannelSettings f => exact ⟨_, rfl, configure_sound s fun i u => ruleConfigureChannel_sound u _ i⟩
  case configureMeshSettings f => exact ⟨_, rfl, configure_sound s fun i u => ruleConfigureMesh_sound u _ i⟩
  case configureConverterMode f => exact ⟨_, rfl, configure_sound s fun i u => ruleConfigureMode_sound u _ i⟩
  case configureScrubSetting f => exact ⟨_, rfl, configure_sound s fun i u => ruleConfigureScrub_sound u _ i⟩
  case configureEventEnables f => exact ⟨_, rfl, configure_sound s fun _ u => .of_same rfl rfl id rfl rfl fun _ h => h⟩
  all_goals cases hc

/-! ## COMMISSION and RECOMMISSION -/

theorem commissionCabinet_lists (s : State) (h : Lists s) : Lists (commissionCabinet s) := by
  obtain ⟨h1, h2, h3, h4, h5, h6⟩ := h
  exact ⟨h1, h2, h3, .of_nil rfl, h5, h6⟩

theorem ruleCommission_lists (s : State) (h : Lists s) : Lists (ruleCommission s).2 := by
  unfold ruleCommission
  repeat' split
  any_goals exact h
  exact commissionCabinet_lists s h

theorem ruleRecommission_lists (s : State) (h : Lists s) : Lists (ruleRecommission s).2 := by
  unfold ruleRecommission
  repeat' split
  any_goals exact h
  exact commissionCabinet_lists s h

theorem exec_keeps_lists {c : Instr} {s t : State} (h : Lists s) (hexec : exec c s = .next t) : Lists t := by
  suffices ∃ t', exec c s = .next t' ∧ Lists t' by
    obtain ⟨t', ht', hkeep⟩ := this
    rw [ht'] at hexec
    injection hexec with hexec
    exact hexec ▸ hkeep
  by_cases hc : remakesDomains c = false
  · obtain ⟨t', ht', hsound⟩ := exec_sound s hc
    exact ⟨t', ht', hsound.lists h⟩
  have hlink (u : State) (g : SupLink → SupLink) (hu : Lists u) : Lists (u.onLink g) := (quiet_onLink u g).sound.lists hu
  cases c
  case commission f => exact ⟨_, rfl, takeFrame_keeps hlink (fun u _ => ruleCommission_lists u) h⟩
  case recommission f => exact ⟨_, rfl, takeFrame_keeps hlink (fun u _ => ruleRecommission_lists u) h⟩
  all_goals exact absurd rfl hc

/-- An empty queue moves no list: clocks, timers and sampled switches alone. -/
theorem Ticks.sound {s t : State} (h : Ticks s t) : Sound s t := by
  obtain ⟨a, b, hentry⟩ := h.entry
  obtain ⟨clock, ranks, hback⟩ := h.back
  have hmoved : Sound s { s with back := t.back } :=
    (quiet_back s (g := fun _ => t.back) (fun hl => by rw [hback]; exact hl.congr rfl rfl rfl) (by rw [hback])).sound
  refine hmoved.trans (.of_same (by rw [h.front]) rfl (fun hl => ?_) h.maps h.xlat fun d hd => ?_)
  · rw [hentry]
    exact EntryUnit.Lawful.congr hl rfl rfl rfl
  · unfold Bufferable live domState at *
    rw [h.cab, h.doms]
    exact hd

/-- Settles O58: every row keeps the laws, by the operations it is made of, and an empty queue moves no list. -/
theorem listLawsKept : Obligations.ListLawsKept := by
  unfold Obligations.ListLawsKept
  intro s t h1 h2 h3 h4 h5 h6 h7 h8 hstep
  rw [← lists_iff]
  refine stepsTo_keeps (P := Lists) (fun _ _ h => h.congr rfl rfl rfl rfl rfl rfl rfl)
    (fun _ _ _ h hexec => exec_keeps_lists h hexec) (fun s h => (idle_ticks s).sound.lists h) ?_ hstep
  exact (lists_iff s).mpr ⟨h1, h2, h3, h4, h5, h6, h7, h8⟩

end Sys2Proof.Machine

/-! PROOFS. Every step keeps the laws of the two translation buffers, and no page of a domain outlives a change of its epoch
(R51, R72, R82). -/

namespace Sys2Proof.Machine

/-! ## Epochs -/

/-- Every domain's epoch is as it was. -/
def SameEpochs (s t : State) : Prop := ∀ d : Fin 64, t.doms[d].epoch = s.doms[d].epoch

/-- A domain whose epoch has changed has no page in the buffers. -/
def EpochSafe (s t : State) : Prop :=
  ∀ d : Fin 64, t.doms[d].epoch = s.doms[d].epoch ∨ ∀ a p, t.xlat.pageAt a = some p → domIx p.dom ≠ d

theorem SameEpochs.of_doms {s t : State} (h : t.doms = s.doms) : SameEpochs s t := fun _ => by rw [h]

theorem SameEpochs.trans {s t u : State} (h : SameEpochs s t) (k : SameEpochs t u) : SameEpochs s u :=
  fun d => (k d).trans (h d)

theorem SameEpochs.safe {s t : State} (h : SameEpochs s t) : EpochSafe s t := fun d => .inl (h d)

/-- Buffers without pages. -/
theorem EpochSafe.of_empty {s t : State} (h : ∀ a, t.xlat.pageAt a = none) : EpochSafe s t :=
  fun _ => .inr fun a p hp => by rw [h] at hp; cases hp

theorem SameEpochs.onDom {d : DomId} {g : DomRec → DomRec} (s : State) (hg : ∀ r, (g r).epoch = r.epoch) :
    SameEpochs s (onDom d g s) := by
  intro i
  by_cases hi : i = domIx d
  · subst hi
    rw [onDom_doms_self, hg]
  · rw [onDom_doms_of_ne hi]

theorem SameEpochs.map {s t : State} {g : DomRec → DomRec} (hdoms : t.doms = s.doms.map g) (hg : ∀ r, (g r).epoch = r.epoch) :
    SameEpochs s t := by
  intro i
  have : (s.doms.map g)[i] = g s.doms[i] := Vector.getElem_map _ _
  rw [hdoms, this, hg]

theorem endRun_sameEpochs (d : DomId) (s : State) : SameEpochs s (endRun d s) :=
  (SameEpochs.onDom s (g := DomRec.endRun) fun _ => rfl).trans (.of_doms (domainDemap_traffic _ d).doms)

theorem expireLease_sameEpochs (d : DomId) (s : State) : SameEpochs s (expireLease d s) := by
  unfold expireLease
  dsimp only
  split
  · split
    · next n _ =>
      exact (SameEpochs.onDom s (g := fun x => { x with lease := n, staged := none, ending := false }) fun _ => rfl).trans
        (.of_doms (raise_traffic _ _).doms)
    · exact (endRun_sameEpochs d s).trans (.of_doms (raise_traffic _ _).doms)
  · exact .of_doms rfl

theorem afterPulse_sameEpochs (s : State) : SameEpochs s (afterPulse s) := by
  have hfold : ∀ (l : List DomId) (u : State), SameEpochs u (l.foldl (fun s d => expireLease d s) u) := by
    intro l
    induction l with
    | nil => exact fun u => .of_doms rfl
    | cons d l ih => exact fun u => (expireLease_sameEpochs d u).trans (ih _)
  unfold afterPulse
  split
  · exact ((hfold _ s).trans (.of_doms (lapse_still _ _).doms)).trans (.of_doms (lapse_still _ _).doms)
  · exact .of_doms rfl

theorem pulse_sameEpochs (s : State) : SameEpochs s (pulse s) := by
  unfold pulse
  split
  · refine .map (g := DomRec.pulse) rfl fun r => ?_
    unfold DomRec.pulse
    split
    · split <;> rfl
    · rfl
  · exact .of_doms rfl

theorem detect_sameEpochs (c : Cause) (s : State) : SameEpochs s (detect c s) := by
  rcases detect_cases c s with ⟨-, h⟩ | ⟨-, -, h⟩
  · exact .of_doms h.doms
  · exact .map h.doms fun _ => rfl

/-- A row that detects keeps the epochs. -/
theorem SameEpochs.of_detects {s t : State} (h : Still s t ∨ ∃ c u, Still s u ∧ t = detect c u) : SameEpochs s t := by
  rcases h with h | ⟨c, u, hu, rfl⟩
  · exact .of_doms h.doms
  · exact SameEpochs.trans (.of_doms hu.doms) (detect_sameEpochs c u)

theorem loseRun_epoch (r : DomRec) : r.loseRun.epoch = r.epoch := by
  unfold DomRec.loseRun
  split <;> rfl

/-- A command keeps the epochs if its rule does. -/
theorem takeFrame_sameEpochs {f : Frame} {n : Nat} {rule : State → Reply} (s : State) (hrule : ∀ u, SameEpochs u (rule u).2) :
    SameEpochs s (takeFrame f n rule s) :=
  takeFrame_keeps (P := SameEpochs s) (fun _ _ h => h) (fun u _ h => h.trans (hrule u)) (.of_doms rfl)

theorem configure_sameEpochs {f : Frame} {item maxIndex : Nat} {taken : State → Bool} {rule : Nat → State → Reply} (s : State)
    (hrule : ∀ i u, (rule i u).2.doms = u.doms) : SameEpochs s (configure f item maxIndex taken rule s) :=
  configure_keeps (P := SameEpochs s) (fun _ _ h => h) (fun i u _ _ h => h.trans (.of_doms (hrule i u))) (.of_doms rfl)

section Rules

variable (s : State)

theorem ruleEnrol_sameEpochs (args : List Byte) : SameEpochs s (ruleEnrol args s).2 := by
  unfold ruleEnrol
  repeat' split
  any_goals exact .of_doms rfl
  exact SameEpochs.onDom (g := fun r => { r with state := .closed }) _ fun _ => rfl

theorem ruleOpenRun_sameEpochs (args : List Byte) : SameEpochs s (ruleOpenRun args s).2 := by
  unfold ruleOpenRun
  repeat' split
  any_goals exact .of_doms rfl
  exact SameEpochs.onDom s (g := fun r => { r with state := .opened, lease := argWord args 1, staged := none, ending := false })
    fun _ => rfl

theorem ruleExtendRun_sameEpochs (args : List Byte) : SameEpochs s (ruleExtendRun args s).2 := by
  unfold ruleExtendRun
  repeat' split
  any_goals exact .of_doms rfl
  exact SameEpochs.onDom s (g := fun r => { r with staged := some (argWord args 1) }) fun _ => rfl

theorem ruleCloseRun_sameEpochs (args : List Byte) : SameEpochs s (ruleCloseRun args s).2 := by
  unfold ruleCloseRun
  repeat' split
  any_goals exact .of_doms rfl
  exact endRun_sameEpochs _ s

theorem ruleResume_doms : (ruleResume s).2.doms = s.doms := by
  unfold ruleResume
  split <;> rfl

theorem ruleClearMap_doms : (ruleClearMap s).2.doms = s.doms := by
  unfold ruleClearMap
  split <;> rfl

theorem ruleConfigurePab_doms (args : List Byte) (i : Nat) : (ruleConfigurePab args i s).2.doms = s.doms := by
  unfold ruleConfigurePab
  dsimp only
  split <;> rfl

theorem ruleConfigureScrub_doms (args : List Byte) (i : Nat) : (ruleConfigureScrub args i s).2.doms = s.doms := by
  unfold ruleConfigureScrub
  split <;> rfl

theorem finishWrite_doms : (finishWrite s).doms = s.doms := by
  have report (q : BackReq) (u : State) : (reportWrite q u).doms = u.doms := by
    unfold reportWrite
    repeat' split
    all_goals rfl
  unfold finishWrite
  split
  · split
    · exact report _ _
    · rfl
  · rfl

theorem offerBackground_doms : (offerBackground s).doms = s.doms := by
  unfold offerBackground
  repeat' split
  all_goals rfl

theorem finishScrub_doms : (finishScrub s).doms = s.doms := by
  unfold finishScrub
  split
  · exact (raise_traffic _ _).doms
  · rfl

theorem finishClear_doms : (finishClear s).doms = s.doms := by
  unfold finishClear
  split
  · exact (raise_traffic _ _).doms
  · rfl

theorem returnPower_doms (strap : BitVec 2) : (returnPower strap s).doms = s.doms := by
  unfold returnPower
  dsimp only
  split <;> rfl

theorem grantRoom_xlat (l : List MapLine) : (grantRoom l s).xlat = s.xlat := by
  induction l generalizing s with
  | nil => rfl
  | cons k rest ih =>
    unfold grantRoom
    split
    · exact ih s
    · split
      · rw [ih, beginWait_back]
        rfl
      · rfl

theorem keepFills_xlat (keep : Fill → Bool) : (keepFills keep s).xlat = s.xlat := by
  unfold keepFills
  dsimp only
  rw [grantRoom_xlat]
  split <;> rfl

/-- ERASE takes every page of the domain whose epoch it raises, and brings none (R82). -/
theorem eraseDomain_epochSafe {s t : State} (d : DomId) (h : EpochSafe s t) : EpochSafe s (eraseDomain d t) := by
  let erased := onDom d DomRec.erase (t.onSeeds fun x => { x with domains := x.domains.set (domIx d).val none (domIx d).isLt })
  have hdemapped := (loseKeys_quiet erased d).trans (domainDemap_quiet _ d)
  have hkept := keepFills_traffic (domainDemap d (loseKeys d erased)) fun f => f.dom != d
  have hxlat : (eraseDomain d t).xlat = (domainDemap d (loseKeys d erased)).xlat := keepFills_xlat _ _
  intro i
  by_cases hi : i = domIx d
  · refine .inr fun a p hp hid => ?_
    rw [hxlat] at hp
    have := demapBy_page hp
    simp [domIx_injective (hid.trans hi)] at this
  · have hdoms : (eraseDomain d t).doms[i] = t.doms[i] := by
      have : (eraseDomain d t).doms = erased.doms := hkept.doms.trans hdemapped.traffic.doms
      rw [this]
      exact onDom_doms_of_ne hi _ _
    rw [hdoms]
    refine (h i).imp_right fun hno a p hp => ?_
    rw [hxlat] at hp
    obtain ⟨q, hq, hpair, -⟩ := hdemapped.shrinks.pages a p hp
    have hd : q.dom = p.dom := congrArg Prod.fst hpair
    exact hd ▸ hno a q hq

theorem ruleErase_epochSafe {s t : State} (args : List Byte) (h : EpochSafe s t) : EpochSafe s (ruleErase args t).2 := by
  unfold ruleErase
  repeat' split
  any_goals exact h
  exact eraseDomain_epochSafe _ h

end Rules

/-! ## COMMISSION and RECOMMISSION -/

/-- The laws of keys let no page be buffered in BLANK and ZEROED (R72, R79). -/
theorem no_page_of_keyLaws {s : State} (hkeys : KeyLaws s) (hbuffers : Buffers s) (hcab : s.cab.cabinet ≠ .ready) (a : Place) :
    s.xlat.pageAt a = none := by
  cases hp : s.xlat.pageAt a with
  | none => rfl
  | some p =>
    have hopen := (hbuffers.domains a p hp).2
    unfold domState at hopen
    split at hopen
    · cases hopen
    · exact absurd hopen (hkeys.2.not_opened (fun ho => hcab ho.2) _)

/-- What the two commands keep with the laws of keys. -/
def CommissionSafe (s u : State) : Prop := KeyLaws u ∧ Buffers u ∧ EpochSafe s u

theorem commissionCabinet_commissionSafe {s u : State} (hlive : live u = true) (h : CommissionSafe s u) (hcab : u.cab.cabinet ≠ .ready) :
    CommissionSafe s (commissionCabinet u) := by
  obtain ⟨hkeys, hbuffers, -⟩ := h
  have hnone : ∀ a, (commissionCabinet u).xlat.pageAt a = none :=
    no_page_of_keyLaws (s := u) hkeys hbuffers hcab
  exact ⟨KeyLaws.commissionCabinet hlive, .of_empty hnone, .of_empty hnone⟩

theorem ruleCommission_commissionSafe {s u : State} (hlive : live u = true) (h : CommissionSafe s u) :
    CommissionSafe s (ruleCommission u).2 := by
  unfold ruleCommission
  split
  · exact h
  · next hcab =>
    repeat' split
    any_goals exact h
    exact commissionCabinet_commissionSafe hlive h fun hr => hcab (by rw [hr]; decide)

theorem ruleRecommission_commissionSafe {s u : State} (hlive : live u = true) (h : CommissionSafe s u) :
    CommissionSafe s (ruleRecommission u).2 := by
  unfold ruleRecommission
  split
  · exact h
  · next hcab =>
    repeat' split
    any_goals exact h
    exact commissionCabinet_commissionSafe hlive h fun hr => hcab (by rw [hr]; decide)

/-! ## Every row -/

/-- Every row but the two keeps the epochs, or leaves no page of a domain whose epoch it changes. -/
theorem exec_epochSafe {c : Instr} (s : State) (hc : remakesDomains c = false) : ∃ t, exec c s = .next t ∧ EpochSafe s t := by
  have hp := afterPulse_sameEpochs s
  let p := afterPulse s
  by_cases hv : touchesVault c = false
  · obtain ⟨t, ht, hstill | hstill⟩ := exec_still s hv
    · exact ⟨t, ht, (SameEpochs.of_doms hstill.doms).safe⟩
    · exact ⟨t, ht, (hp.trans (.of_doms hstill.doms)).safe⟩
  cases c
  case runPulse => exact ⟨_, rfl, (hp.trans (pulse_sameEpochs p)).safe⟩
  case leaseExpiry d => exact ⟨_, rfl, (expireLease_sameEpochs d s).safe⟩
  case writeCompletion => exact ⟨_, rfl, (SameEpochs.of_doms (finishWrite_doms s)).safe⟩
  case channelDetection i => exact ⟨_, rfl, (hp.trans (.of_detects (detectChannel_eq i p))).safe⟩
  case meshDetection i => exact ⟨_, rfl, (hp.trans (.of_detects (detectMesh_eq i p))).safe⟩
  case lidRegistered isOpen => exact ⟨_, rfl, (hp.trans (.of_detects (registerLid_eq isOpen p))).safe⟩
  case panelRegistered pressed => exact ⟨_, rfl, (hp.trans (.of_detects (registerPanel_eq pressed p))).safe⟩
  case zeroise f => exact ⟨_, rfl, (hp.trans (takeFrame_sameEpochs p fun u => detect_sameEpochs .command u)).safe⟩
  case backgroundLineOffer => exact ⟨_, rfl, (SameEpochs.of_doms (offerBackground_doms s)).safe⟩
  case scrubDone => exact ⟨_, rfl, (SameEpochs.of_doms (finishScrub_doms s)).safe⟩
  case clearDone => exact ⟨_, rfl, (SameEpochs.of_doms (finishClear_doms s)).safe⟩
  case mainsLoss =>
    refine ⟨_, rfl, SameEpochs.safe ?_⟩
    split
    · exact .map (g := DomRec.loseRun) rfl loseRun_epoch
    · exact .of_doms rfl
  case mainsReturn strap =>
    refine ⟨_, rfl, SameEpochs.safe ?_⟩
    split
    · exact .of_doms (returnPower_doms s strap)
    · exact .of_doms rfl
  case rstAsserted =>
    refine ⟨_, rfl, SameEpochs.safe ?_⟩
    split
    · exact .map (g := DomRec.loseRun) rfl loseRun_epoch
    · exact .of_doms rfl
  case rstEnd strap =>
    refine ⟨_, rfl, SameEpochs.safe ?_⟩
    split <;> exact .of_doms rfl
  case firstBatteryConnection pgood strap =>
    refine ⟨_, rfl, .of_empty fun a => ?_⟩
    have hxlat : (connectBattery pgood strap s).xlat = .reset := by
      unfold connectBattery returnPower
      dsimp only
      split
      · split <;> rfl
      · rfl
    rw [hxlat, pageAt_reset]
  case resume f => exact ⟨_, rfl, (takeFrame_sameEpochs s fun u => .of_doms (ruleResume_doms u)).safe⟩
  case clearMap f => exact ⟨_, rfl, (takeFrame_sameEpochs s fun u => .of_doms (ruleClearMap_doms u)).safe⟩
  case enrol f => exact ⟨_, rfl, (takeFrame_sameEpochs s fun u => ruleEnrol_sameEpochs u f.args).safe⟩
  case openRun f => exact ⟨_, rfl, (hp.trans (takeFrame_sameEpochs p fun u => ruleOpenRun_sameEpochs u f.args)).safe⟩
  case extendRun f => exact ⟨_, rfl, (hp.trans (takeFrame_sameEpochs p fun u => ruleExtendRun_sameEpochs u f.args)).safe⟩
  case closeRun f => exact ⟨_, rfl, (hp.trans (takeFrame_sameEpochs p fun u => ruleCloseRun_sameEpochs u f.args)).safe⟩
  case erase f =>
    exact ⟨_, rfl, takeFrame_keeps (P := EpochSafe s) (fun _ _ h => h) (fun _ _ h => ruleErase_epochSafe f.args h) hp.safe⟩
  case configurePab f => exact ⟨_, rfl, (configure_sameEpochs s fun i u => ruleConfigurePab_doms u f.args i).safe⟩
  case configureScrubSetting f => exact ⟨_, rfl, (configure_sameEpochs s fun i u => ruleConfigureScrub_doms u f.args i).safe⟩
  case commission | recommission => cases hc
  all_goals exact absurd rfl hv

theorem exec_keeps_buffers {c : Instr} {s t : State} (hkeys : KeyLaws s) (h : Buffers s) (hexec : exec c s = .next t) :
    Buffers t ∧ EpochSafe s t := by
  suffices ∃ t', exec c s = .next t' ∧ Buffers t' ∧ EpochSafe s t' by
    obtain ⟨t', ht', hkeep⟩ := this
    rw [ht'] at hexec
    injection hexec with hexec
    exact hexec ▸ hkeep
  by_cases hc : remakesDomains c = false
  · obtain ⟨t', ht', hsound⟩ := exec_sound s hc
    obtain ⟨u, hu, hsafe⟩ := exec_epochSafe s hc
    rw [ht'] at hu
    injection hu with hu
    exact ⟨t', ht', hsound.buffers h, hu ▸ hsafe⟩
  have hlink (u : State) (g : SupLink → SupLink) (hu : CommissionSafe s u) : CommissionSafe s (u.onLink g) := hu
  have hstart : CommissionSafe s s := ⟨hkeys, h, (SameEpochs.of_doms rfl).safe⟩
  cases c
  case commission f =>
    exact ⟨_, rfl, (takeFrame_keeps (rule := ruleCommission) hlink (fun _ => ruleCommission_commissionSafe) hstart).2⟩
  case recommission f =>
    exact ⟨_, rfl, (takeFrame_keeps (rule := ruleRecommission) hlink (fun _ => ruleRecommission_commissionSafe) hstart).2⟩
  all_goals exact absurd rfl hc

/-- Settles O59: every row keeps the laws, by the operations it is made of; COMMISSION and RECOMMISSION find no page, and of
the rows that change an epoch ERASE demaps its domain. -/
theorem bufferLawKept : Obligations.BufferLawKept := by
  unfold Obligations.BufferLawKept
  intro s t hcab hdom _ hbuf hstep
  have hb : Buffers s := (bufferLaw_iff s).mp hbuf
  suffices Buffers t ∧ EpochSafe s t by
    refine ⟨(bufferLaw_iff t).mpr this.1, fun d hd p hp => ?_⟩
    obtain ⟨a, ha⟩ := mem_buffered_iff.mp hp
    rcases this.2 d with hsame | hno
    · exact absurd hsame hd
    · exact hno a p ha
  unfold StepsTo step at hstep
  split at hstep
  · injection hstep with hstep
    subst hstep
    have ht := idle_ticks s
    exact ⟨ht.sound.buffers hb, (SameEpochs.of_doms ht.doms).safe⟩
  · next c rest _ =>
    have hq : KeyLaws { s with pending := rest } ∧ Buffers { s with pending := rest } := ⟨⟨hcab, hdom⟩, hb⟩
    exact exec_keeps_buffers (s := { s with pending := rest }) hq.1 hq.2 hstep

end Sys2Proof.Machine

/-! PROOFS. What reset leaves: the values of R180 and R178, and the laws that every step keeps (log entry 1). -/

namespace Sys2Proof.Machine

theorem reset_lists : Lists State.reset := by
  refine ⟨⟨Nat.zero_le _, List.nodup_nil⟩, by simp [followingLaw_iff, State.reset, FrontPort.reset], ?_, .of_nil rfl,
    ⟨Nat.zero_le _, List.nodup_nil⟩, ?_⟩
  · exact ⟨Nat.zero_le _, Nat.zero_le _, List.nodup_nil, by nofun⟩
  · exact ⟨Nat.zero_le _, List.nodup_nil, Nat.zero_le _, by nofun, List.nodup_nil, by nofun, List.nodup_nil, by nofun⟩

theorem reset_domains (d : Fin 64) : State.reset.doms[d] = .reset ∧ State.reset.seeds.domains[d] = none :=
  ⟨Vector.getElem_replicate _, Vector.getElem_replicate _⟩

theorem reset_keyLaws : KeyLaws State.reset := by
  constructor
  · have hzero : State.reset.seeds.domains[(0 : Fin 64)].isSome = State.reset.seeds.root.isSome := by
      rw [(reset_domains 0).2]
      rfl
    exact ⟨by decide, by decide, hzero, by decide, by decide, by decide⟩
  · rw [domainLaw_iff]
    refine ⟨fun d _ => ?_, (reset_domains 0).1⟩
    obtain ⟨hrec, hseed⟩ := reset_domains d
    rw [hrec, hseed]
    exact DomRec.lawful_of_not_opened (by decide) (by simp [DomRec.reset]) rfl rfl

theorem reset_pulseTaken : PulseTaken State.reset := by
  refine fun _ => ⟨fun d hd => ?_, fun x hx => ?_⟩
  · rw [(reset_domains d).1] at hd
    cases hd
  · cases x <;> cases hx

/-- Settles O3. -/
theorem resetKeepsLaws : Obligations.ResetKeepsLaws := by
  unfold Obligations.ResetKeepsLaws
  obtain ⟨hslot, hqueue, hentry, hupdate, hfill, hwalk, hfollowing, hmap⟩ := (lists_iff _).mp reset_lists
  have hbuffers : BufferLaw State.reset := (bufferLaw_iff _).mpr (Buffers.of_empty pageAt_reset)
  exact ⟨Memory.blank_wf 0, reset_keyLaws.1, reset_keyLaws.2, hslot, hqueue, hentry, hupdate, hfill, hwalk, hbuffers,
    reset_pulseTaken, hfollowing, hmap⟩

/-- Settles O2: the values of each block at reset, the vectors entry by entry. -/
theorem resetValues : Obligations.ResetValues := by
  unfold Obligations.ResetValues
  have hfixed (i : Fin 16) : State.reset.xlat.fixed[i] = { held := .reset, lock := false, used := false } :=
    Vector.getElem_replicate _
  have hsets (i : Fin 256) : State.reset.xlat.sets[i] = { way0 := .reset, way1 := .reset, recentOne := false } :=
    Vector.getElem_replicate _
  have hchannels (c : Fin 8) : State.reset.mon.channels[c] = .reset := Vector.getElem_replicate _
  have hmeshes (i : Fin 2) : State.reset.mon.meshes[i] = .reset := Vector.getElem_replicate _
  refine ⟨rfl, rfl, rfl, rfl, rfl, rfl, rfl, rfl, fun d => (reset_domains d).2, fun d => (reset_domains d).1, hchannels, hmeshes,
    rfl, rfl, rfl, rfl, rfl, rfl, rfl, rfl, rfl, rfl, rfl, rfl, rfl, rfl, rfl, rfl, rfl, rfl, rfl, rfl, rfl, rfl, rfl, rfl, rfl,
    fun i => ?_, fun i => ?_, rfl, rfl, rfl, rfl, rfl, rfl, rfl, rfl, rfl, rfl, rfl, rfl, rfl⟩
  · rw [hfixed]
    exact ⟨rfl, rfl, rfl⟩
  · rw [hsets]
    exact ⟨rfl, rfl, rfl⟩

end Sys2Proof.Machine

/-! PROOFS. How a transaction whose region is decoded is answered, refused, offered to the Back Queue and served (R12, R15, R16,
R48, R88, R89, R131), in the words of the statements. -/

namespace Sys2Proof.Machine

/-! ## Demaps of several pages -/

/-- A demap of the pages that `hit` names, with LOCK-LOST for a locked one. -/
def State.demapped (hit : Page → Bool) (s : State) : State :=
  { s with
    xlat := s.xlat.demap hit
    ev := { s.ev with flags := s.ev.flags ||| LockLostMark hit s } }

theorem demapBy_eq_demapped {hit : Page → Bool} {s : State} (h : live s = true) : demapBy hit s = s.demapped hit := by
  unfold demapBy
  rw [raiseIf_eq (by exact h), State.demapped, lockLostMark_eq]
  rfl

theorem Held.demap_demap (p q : Page → Bool) (h : Held) : (h.demap p).demap q = h.demap fun x => p x || q x := by
  obtain ⟨v, x⟩ := h
  cases v <;> cases hp : p x <;> cases hq : q x <;> simp [Held.demap, Held.holds, Held.drop, hp, hq]

theorem FixedEntry.demap_demap (p q : Page → Bool) (e : FixedEntry) : (e.demap p).demap q = e.demap fun x => p x || q x := by
  obtain ⟨⟨v, x⟩, l, u⟩ := e
  cases v <;> cases hp : p x <;> cases hq : q x <;>
    simp [FixedEntry.demap, Held.holds, FixedEntry.drop, Held.drop, hp, hq]

/-- Two demaps are one of the pages that either names. -/
theorem Translation.demap_demap (p q : Page → Bool) (t : Translation) : (t.demap p).demap q = t.demap fun x => p x || q x := by
  unfold Translation.demap
  simp only [Vector.map_map, Function.comp_def, FixedEntry.demap_demap, SetRow.demap, Held.demap_demap]
  rfl

theorem Translation.demap_none (t : Translation) : t.demap (fun _ => false) = t := by
  have hheld (h : Held) : h.demap (fun _ => false) = h := by simp [Held.demap, Held.holds]
  have hfixed (e : FixedEntry) : e.demap (fun _ => false) = e := by simp [FixedEntry.demap, Held.holds]
  have hset (r : SetRow) : r.demap (fun _ => false) = r := by simp [SetRow.demap, hheld]
  unfold Translation.demap
  have h1 : t.fixed.map (FixedEntry.demap fun _ => false) = t.fixed := by
    rw [show (FixedEntry.demap fun _ => false) = id from funext hfixed, Vector.map_id]
  have h2 : t.sets.map (SetRow.demap fun _ => false) = t.sets := by
    rw [show (SetRow.demap fun _ => false) = id from funext hset, Vector.map_id]
  rw [h1, h2]

/-- Two demaps lose a locked entry exactly when one of the pages that either names does. -/
theorem Translation.losesLock_or (p q : Page → Bool) (t : Translation) :
    (t.losesLock p || (t.demap p).losesLock q) = t.losesLock fun x => p x || q x := by
  have hentry (e : FixedEntry) : (e.lock && e.held.holds fun x => p x || q x) =
      ((e.lock && e.held.holds p) || ((e.demap p).lock && (e.demap p).held.holds q)) := by
    obtain ⟨⟨v, x⟩, l, u⟩ := e
    cases v <;> cases l <;> cases hp : p x <;> cases hq : q x <;>
      simp [FixedEntry.demap, Held.holds, FixedEntry.drop, Held.drop, hp, hq]
  rw [Bool.eq_iff_iff]
  unfold losesLock demap
  simp only [any_toList_iff, Bool.or_eq_true, List.any_eq_true, List.mem_finRange, true_and, hentry, Fin.getElem_fin,
    Vector.getElem_map, exists_or]

theorem LockLostMark_or (p q : Page → Bool) (s : State) :
    LockLostMark p s ||| LockLostMark q (s.demapped p) = LockLostMark (fun x => p x || q x) s := by
  rw [lockLostMark_eq, lockLostMark_eq, lockLostMark_eq, ← s.xlat.losesLock_or p q]
  have hx : (s.demapped p).xlat = s.xlat.demap p := rfl
  rw [hx]
  cases s.xlat.losesLock p <;> cases (s.xlat.demap p).losesLock q <;> rfl

theorem State.demapped_demapped (p q : Page → Bool) (s : State) :
    (s.demapped p).demapped q = s.demapped fun x => p x || q x := by
  have hflags := LockLostMark_or p q s
  unfold State.demapped at *
  simp only [Translation.demap_demap, ← hflags, BitVec.or_assoc]

theorem State.demapped_none (s : State) : s.demapped (fun _ => false) = s := by
  have : LockLostMark (fun _ => false) s = 0#11 := by simp [LockLostMark]
  unfold State.demapped
  rw [this, Translation.demap_none, BitVec.or_zero]

/-- Page demaps of several pairs are one demap of them all. -/
theorem foldl_pageDemap {s : State} (h : live s = true) (l : List (DomId × Fpn)) :
    l.foldl (fun u p => pageDemap p.1 p.2 u) s = s.demapped fun x => decide (x.pair ∈ l) := by
  induction l generalizing s with
  | nil => simpa using (State.demapped_none s).symm
  | cons p l ih =>
    have hlive : live (s.demapped (Page.isOf p.1 p.2)) = true := h
    rw [List.foldl_cons, pageDemap, demapBy_eq_demapped h, ih hlive, State.demapped_demapped]
    congr 1
    funext x
    rw [Bool.eq_iff_iff]
    simp [isOf_iff]

/-- What a demap does to the buffers, in the statements' words. -/
theorem demapped_spec (hit : Page → Bool) (s : State) : Demapped hit s (s.demapped hit) := by
  refine ⟨fun i => ?_, fun i => ?_⟩
  · rw [show (s.demapped hit).xlat = s.xlat.demap hit from rfl, Translation.demap_fixed]
    simp [FixedEntry.demap, Held.holds, FixedEntry.drop, Held.drop]
  · rw [show (s.demapped hit).xlat = s.xlat.demap hit from rfl, Translation.demap_sets]
    simp [SetRow.demap, Held.without_eq_demap]

/-- The raw watch makes the walks on the line stale and removes its pairs (R48). -/
theorem rawWatch_eq {s : State} (h : live s = true) (k : MapLine) :
    rawWatch k s = (markStale k s).demapped fun p => mapLineOf p.dom p.fpn == k := by
  unfold rawWatch
  rw [foldl_pageDemap (by exact h)]
  congr 1
  funext x
  rw [Bool.eq_iff_iff]
  simp only [decide_eq_true_eq, beq_iff_eq]
  exact mem_mapLinePairs_iff x.dom x.fpn k

theorem rawWatch_frame {s : State} (h : live s = true) (k : MapLine) :
    ∃ t e, rawWatch k s = { s with xlat := t, ev := e } := ⟨_, _, rawWatch_eq h k⟩

theorem rawWatch_watched {s : State} (h : live s = true) (k : MapLine) : Watched (some k) s (rawWatch k s) := by
  have hwalks : (markStale k s).xlat = { s.xlat with walks := s.xlat.walks.map (Walk.staleOn k) } := by
    unfold markStale State.onXlat Walk.staleOn
    simp
  rw [rawWatch_eq h]
  refine ⟨?_, ?_, ?_⟩
  · show (markStale k s).xlat.demap _ = _
    rw [hwalks]
    rfl
  · have := demapped_spec (fun p => mapLineOf p.dom p.fpn == k) (markStale k s)
    unfold Demapped at this ⊢
    rw [hwalks] at this
    exact this
  · show ({ (markStale k s).ev with flags := _ } : EventUnit) = _
    unfold LockLostMark
    rw [hwalks]
    rfl

/-! ## Slots -/

/-- A transaction's slot stands in a region, in the KEY WINDOW with its key not lost. -/
structure Serving (t : Txn) (r : Region) (s : State) : Prop where
  found : ∃ x, findSlot s t.tag = some x ∧ x.txn = t ∧ x.region = some r ∧ (r = .key → x.keyLost = false)
  region : ∀ y ∈ s.front.slots, y.txn.tag = t.tag → y.region = some r

theorem moveSlot_moveSlot (s : State) (tag : Tag) (r r' : Region) (ph ph' : Phase) :
    (s.moveSlot tag r ph).moveSlot tag r' ph' = s.moveSlot tag r' ph' := by
  unfold State.moveSlot
  simp only [List.map_map]
  congr 2
  refine List.map_congr_left fun y _ => ?_
  dsimp only [Function.comp_apply]
  by_cases hy : y.txn.tag = tag
  · simp [hy]
  · simp [hy]

/-- A region is decoded, and then the phase set: the slot has moved. -/
theorem setPhase_onSlot_region (s : State) (tag : Tag) (r : Region) (ph : Phase) :
    setPhase tag ph (onSlot tag (fun y => { y with region := some r }) s) = s.moveSlot tag r ph := by
  unfold State.moveSlot setPhase onSlot State.onFront
  simp only [List.map_map]
  congr 2
  refine List.map_congr_left fun y _ => ?_
  dsimp only [Function.comp_apply]
  by_cases hy : y.txn.tag = tag
  · simp [hy]
  · simp [hy]

/-- The phase of a slot whose region is decoded is set: the slot has moved. -/
theorem setPhase_eq_moveSlot {s : State} {tag : Tag} {r : Region} (h : ∀ y ∈ s.front.slots, y.txn.tag = tag → y.region = some r)
    (ph : Phase) : setPhase tag ph s = s.moveSlot tag r ph := by
  have hslots : (s.front.slots.map fun x => if (x.txn.tag == tag) = true then { x with phase := ph } else x) =
      s.front.slots.map fun y => if y.txn.tag = tag then { y with region := some r, phase := ph } else y := by
    refine List.map_congr_left fun y hy => ?_
    by_cases htag : y.txn.tag = tag
    · simp [htag, ← h y hy htag]
    · simp [htag]
  unfold State.moveSlot
  rw [← hslots]
  rfl

namespace Serving

variable {t : Txn} {r : Region} {s : State}

theorem congr {u : State} (h : Serving t r s) (hslots : u.front.slots = s.front.slots) : Serving t r u := by
  obtain ⟨hfound, hregion⟩ := h
  exact ⟨by rw [findSlot_congr hslots]; exact hfound, by rw [hslots]; exact hregion⟩

theorem moveSlot (h : Serving t r s) (ph : Phase) : Serving t r (s.moveSlot t.tag r ph) := by
  obtain ⟨⟨x, hx, htxn, hr, hk⟩, hregion⟩ := h
  refine ⟨⟨{ x with phase := ph }, ?_, htxn, hr, hk⟩, fun y hy htag => ?_⟩
  · rw [← setPhase_eq_moveSlot hregion]
    exact findSlot_setPhase_self s ph hx
  · obtain ⟨z, hz, rfl⟩ := List.mem_map.mp hy
    split at htag
    · next hz => rw [if_pos hz]
    · next hne => exact absurd htag hne

theorem setPhase_eq (h : Serving t r s) (ph : Phase) : setPhase t.tag ph s = s.moveSlot t.tag r ph :=
  setPhase_eq_moveSlot h.region ph

theorem refuse_eq (h : Serving t r s) (k : Kind) (why : Reason) : refuse t.tag k why s = s.refused t r k why := by
  obtain ⟨x, hx, rfl, hr, -⟩ := h.found
  rw [Machine.refuse_eq s k why hx, h.setPhase_eq]
  simp [State.refused, report, State.onEv, refusalReport, txnReport, hr, State.moveSlot]

theorem respondDone_eq (h : Serving t r s) : respondDone t.tag s = s.moveSlot t.tag r (.responding .done zeroLine) :=
  h.setPhase_eq _

end Serving

/-! ## Entering the Back Queue -/

section Enter

variable {s : State} {tag : Tag} {x : Slot} {r : Region} {l : BackLine}

/-- A front transaction's line read enters (R25, R131). -/
theorem enterFront_read (hx : findSlot s tag = some x) (hphase : x.phase = .readWait l) (hr : x.region = some r)
    (hregion : ∀ y ∈ s.front.slots, y.txn.tag = tag → y.region = some r) :
    enterFront tag s = { s.moveSlot tag r (.readOut l s.back.nextId) with
      back := s.back.push false l .front (if x.txn.dir = .read ∧ r ≠ .map then x.txn.beat else 0#3) zeroLine 0#64 } := by
  unfold enterFront
  simp only [hx, hphase, hr]
  rw [setPhase_eq_moveSlot (by exact hregion)]
  simp [State.moveSlot, enqueueRead, enqueue, State.onBack, BackCtl.push]

/-- A front transaction's line enters, and it is answered DONE (R15, R48, R89). -/
theorem enterFront_write {d : Line} (hlive : live s = true) (hx : findSlot s tag = some x) (hphase : x.phase = .writeWait l d)
    (hr : x.region = some r) (hregion : ∀ y ∈ s.front.slots, y.txn.tag = tag → y.region = some r)
    (hserved : r = .plain ∨ r = .raw ∨ r = .key ∧ x.keyLost = false) :
    LineEnters x.txn r l d s (enterFront tag s) := by
  have htag : x.txn.tag = tag := tag_of_findSlot s hx
  intro stored hplain hstored
  have hdone (u : State) (hslots : u.front.slots = s.front.slots) :
      respondDone tag u = u.moveSlot tag r (.responding .done zeroLine) :=
    setPhase_eq_moveSlot (by rw [hslots]; exact hregion) _
  rw [htag]
  rcases hserved with rfl | rfl | ⟨rfl, hlost⟩
  · rw [hplain (by decide)]
    have henter : enterFront tag s = respondDone tag (enqueue true l .front 0#3 d (~~~x.txn.enables) s) := by
      simp only [enterFront, hx, hphase, hr]
    rw [henter, hdone (enqueue true l .front 0#3 d (~~~x.txn.enables) s) rfl]
    exact ⟨rfl, rfl, rfl⟩
  · rw [hplain (by decide), if_pos rfl]
    cases hk : rawMapLine x.txn.line with
    | none =>
      have henter : enterFront tag s = respondDone tag (enqueueWrite l .front d s) := by
        simp only [enterFront, hx, hphase, hr, hk]
      rw [henter, hdone (enqueueWrite l .front d s) rfl]
      exact ⟨rfl, rfl, rfl⟩
    | some k =>
      have henter : enterFront tag s = respondDone tag (rawWatch k (enqueueWrite l .front d s)) := by
        simp only [enterFront, hx, hphase, hr, hk]
      have hwatch := rawWatch_watched (s := enqueueWrite l .front d s) hlive k
      obtain ⟨t, e, hframe⟩ := rawWatch_frame (s := enqueueWrite l .front d s) hlive k
      rw [hframe] at henter hwatch
      rw [henter, hdone { enqueueWrite l .front d s with xlat := t, ev := e } rfl]
      exact ⟨rfl, hwatch⟩
  · obtain ⟨k, hk, rfl⟩ := hstored rfl
    have henter : enterFront tag s = respondDone tag (enqueueWrite l .front (encipher k l d) s) := by
      simp only [enterFront, hx, hphase, hr, hlost, hk, Bool.false_eq_true, if_false]
    rw [henter, hdone (enqueueWrite l .front (encipher k l d) s) rfl]
    exact ⟨rfl, rfl, rfl⟩

end Enter

/-! ## Offers and service -/

theorem LineEnters.of_moveSlot {t : Txn} {r : Region} {l : BackLine} {d : Line} {s u : State} {ph : Phase}
    (h : LineEnters t r l d (s.moveSlot t.tag r ph) u) : LineEnters t r l d s u := by
  intro stored hplain hkey
  obtain ⟨hu, hw⟩ := h stored hplain hkey
  refine ⟨?_, hw⟩
  rw [moveSlot_moveSlot] at hu
  exact hu

namespace Serving

variable {t : Txn} {r : Region} {s : State}

/-- A slot's line read is offered. -/
theorem offerRead_eq (h : Serving t r s) (l : BackLine) : offerRead t.tag l s =
    if mayEnter (.front t.tag) s = true then
      { s.moveSlot t.tag r (.readOut l s.back.nextId) with
        back := s.back.push false l .front (if t.dir = .read ∧ r ≠ .map then t.beat else 0#3) zeroLine 0#64 }
    else { s.moveSlot t.tag r (.readWait l) with back := s.back.await (.front t.tag) } := by
  obtain ⟨x, hx, rfl, hr, -⟩ := h.found
  have hmay : mayEnter (.front x.txn.tag) (setPhase x.txn.tag (.readWait l) s) = mayEnter (.front x.txn.tag) s :=
    mayEnter_congr _ rfl rfl
  have hm := h.moveSlot (.readWait l)
  have hx' := findSlot_setPhase_self s (.readWait l) hx
  unfold offerRead offer
  rw [hmay]
  split
  · show enterFront _ _ = _
    rw [enterFront_read hx' rfl hr (by rw [h.setPhase_eq]; exact hm.region), h.setPhase_eq, moveSlot_moveSlot]
    rfl
  · rw [beginWait_back, h.setPhase_eq]
    rfl

/-- A slot's line write is offered. -/
theorem offerWrite_spec (hlive : live s = true) (h : Serving t r s) (hr : r = .plain ∨ r = .raw ∨ r = .key) (l : BackLine)
    (d : Line) :
    if mayEnter (.front t.tag) s = true then LineEnters t r l d s (offerWrite t.tag l d s)
    else offerWrite t.tag l d s = { s.moveSlot t.tag r (.writeWait l d) with back := s.back.await (.front t.tag) } := by
  obtain ⟨x, hx, rfl, hxr, hlost⟩ := h.found
  have hmay : mayEnter (.front x.txn.tag) (setPhase x.txn.tag (.writeWait l d) s) = mayEnter (.front x.txn.tag) s :=
    mayEnter_congr _ rfl rfl
  have hm := h.moveSlot (.writeWait l d)
  have hx' := findSlot_setPhase_self s (.writeWait l d) hx
  unfold offerWrite offer
  rw [hmay]
  split
  · refine LineEnters.of_moveSlot (ph := .writeWait l d) ?_
    rw [h.setPhase_eq] at hx' ⊢
    exact enterFront_write (x := { x with phase := .writeWait l d }) hlive hx' rfl hxr hm.region
      (hr.imp_right fun h => h.imp_right fun h => ⟨h, hlost h⟩)
  · rw [beginWait_back, h.setPhase_eq]
    rfl

/-- A transaction is served at its back line: its read, its answer, its line write, or its read before the merge. -/
theorem serves {u : State} (hlive : live s = true) (h : Serving t r s) (hr : r = .plain ∨ r = .raw ∨ r = .key) {l : BackLine}
    (hread : t.dir = .read ∨ t.enables ≠ 0#64 ∧ t.enables ≠ allMarks ∧ r ≠ .plain → u = offerRead t.tag l s)
    (hnone : t.dir = .write → t.enables = 0#64 → u = respondDone t.tag s)
    (hwrite : t.dir = .write → t.enables ≠ 0#64 → t.enables = allMarks ∨ r = .plain → u = offerWrite t.tag l t.data s) :
    Serves t r l s u := by
  have hmap : r ≠ .map := by rcases hr with rfl | rfl | rfl <;> nofun
  refine ⟨fun hcase => ?_, fun hdir hen => ?_, fun hdir hen hcase => ?_⟩
  · rw [hread hcase, h.offerRead_eq]
    simp [hmap]
  · rw [hnone hdir hen, h.respondDone_eq]
  · rw [hwrite hdir hen hcase]
    exact h.offerWrite_spec hlive hr l t.data

end Serving

end Sys2Proof.Machine

/-! PROOFS. The front port: a transaction is held, queued behind its line, or starts as its region says (R2 to R9, R15, R16,
R32, R52, R58, R87, R88); the lookup of a released one; the delivery of a response (R10, R14, R58, R90). -/

namespace Sys2Proof.Machine

/-! ## A page is found, and the transaction goes on -/

namespace Serving

variable {t : Txn} {s : State}

theorem serveKey_serves (hlive : live s = true) (h : Serving t .key s) (p : Page) :
    Serves t .key (keyBackLine s.seeds.pab p.bpn (keyPageIndex t.line)) s (serveKey t.tag t p s) := by
  refine h.serves hlive (by simp) (fun hcase => ?_) (fun hdir hen => ?_) (fun hdir hen hcase => ?_)
  · rcases hcase with hdir | ⟨hzero, hall, -⟩
    · simp only [serveKey, hdir]
    · cases hdir : t.dir with
      | read => simp only [serveKey, hdir]
      | write => simp only [serveKey, hdir, hzero, hall, if_false]
  · simp only [serveKey, hdir, hen, if_true]
  · have hall : t.enables = allMarks := hcase.resolve_right (by nofun)
    simp only [serveKey, hdir, hall, if_true]
    rw [if_neg (by decide)]

theorem handToEntry_eq (h : Serving t .key s) (p : Page) : handToEntry t.tag p s =
    { s.moveSlot t.tag .key .entryWait with
      entry := { s.entry with waiting := s.entry.waiting ++ [.component t.tag p.bpn p.life] } } := by
  rw [handToEntry, h.setPhase_eq]
  rfl

/-- What the class check makes of a transaction (R88), by its outcome. -/
theorem classCheck_goesOn (hlive : live s = true) (h : Serving t .key s) (p : Page) : GoesOn t p s (classCheck t.tag p s) := by
  obtain ⟨x, hx, rfl, hr, hlost⟩ := h.found
  unfold GoesOn classCheck
  simp only [hx]
  by_cases happ : p.kernelOnly = true ∧ x.txn.priv = .app
  · rw [if_pos happ, classOutcome, if_pos happ]
    exact h.refuse_eq _ _
  · rw [if_neg happ, classOutcome, if_neg happ]
    cases hcls : p.cls <;> cases hdir : x.txn.dir
    case dataRo.write => simpa using h.refuse_eq _ _
    case dataRw.write =>
      by_cases hopen : domState s x.txn.dom = .opened
      · simpa [hopen] using h.serveKey_serves hlive p
      · simpa [hopen] using h.refuse_eq _ _
    case key.read =>
      by_cases hlife : p.life = .live
      · simpa [hlife] using h.serveKey_serves hlive p
      · simpa [hlife] using h.refuse_eq _ _
    case key.write => simpa using h.handToEntry_eq p
    case dataRo.read => simpa using h.serveKey_serves hlive p
    case dataRw.read => simpa using h.serveKey_serves hlive p

end Serving

/-! ## Lookups -/

theorem Translation.lookup_of_finds {d : DomId} {f : Fpn} {t t' : Translation} {p : Page} (h : Finds d f t p t') :
    t.lookup d f = (some p, t') := by
  have hpage {x : Held} (hx : x.holds (Page.isOf d f) = true) : x.page = some x.fields := by
    have hv : x.valid = true := by
      simp only [Held.holds, Bool.and_eq_true] at hx
      exact hx.1
    simp [Held.page, hv]
  rcases h with ⟨i, hi, rfl, rfl⟩ | ⟨hnone, way1, rfl, h0, h1⟩
  · have hheld : t.fixed[i].held.holds (Page.isOf d f) = true := by simpa using List.find?_some hi
    simp only [lookup, hi, FixedEntry.page, hpage hheld]
    rfl
  · simp only [lookup, hnone]
    cases way1 with
    | false =>
      obtain ⟨hholds, rfl⟩ := h0 rfl
      rw [if_pos hholds, hpage hholds]
    | true =>
      obtain ⟨hno, hholds, rfl⟩ := h1 rfl
      rw [if_neg (by simp [hno]), if_pos hholds, hpage hholds]

theorem Translation.lookup_of_misses {d : DomId} {f : Fpn} {t : Translation} (h : Misses d f t) : t.lookup d f = (none, t) := by
  obtain ⟨hfixed, hset⟩ := h
  have h0 := Translation.setHit_none hset false
  have h1 := Translation.setHit_none hset true
  simp only [SetRow.way, Bool.false_eq_true, if_false, if_true] at h0 h1
  simp [lookup, hfixed, h0, h1]

/-! ## Walks -/

theorem joinedWalks_eq (d : DomId) (f : Fpn) (tag : Tag) (walks : List Walk) :
    (walks.map fun w => if w.dom == d && w.fpn == f then { w with waiters := w.waiters ++ [tag] } else w) =
      joinedWalks d f tag walks := by
  simp [joinedWalks]

/-- A walk for a pair that no walk is for starts, and its read enters or waits (R57, R59). -/
theorem startWalk_eq {d : DomId} {f : Fpn} {waiters : List Tag} {lock : Bool} {s : State} (h : s.xlat.walkFor d f = none) :
    startWalk d f waiters lock s = s.walkStarted d f waiters lock := by
  have hnone : ∀ w ∈ s.xlat.walks, ¬(w.dom = d ∧ w.fpn = f) := by
    intro w hw
    have := List.find?_eq_none.mp h w hw
    simpa using this
  have hkeep (g : Walk → Walk) : (s.xlat.walks.map fun w => if w.dom == d && w.fpn == f then g w else w) = s.xlat.walks := by
    conv_rhs => rw [← List.map_id s.xlat.walks]
    refine List.map_congr_left fun w hw => ?_
    have := hnone w hw
    simp [this]
  have hmay (g : Translation → Translation) : mayEnter (.walk d f) (s.onXlat g) = mayEnter (.walk d f) s :=
    mayEnter_congr _ rfl rfl
  unfold startWalk offer State.walkStarted
  simp only [hmay]
  split
  · show enterWalk d f _ = _
    unfold enterWalk
    simp only [State.onXlat, enqueueRead, enqueue, State.onBack, BackCtl.push, List.map_append, hkeep]
    simp
  · rw [beginWait_back]
    rfl

/-! ## The start of a transaction -/

/-- The state with the region of a tag's slot decoded (R4). -/
def State.decoded (tag : Tag) (r : Region) (s : State) : State := onSlot tag (fun y => { y with region := some r }) s

theorem moveSlot_decoded (s : State) (tag : Tag) (r : Region) (ph : Phase) :
    (s.decoded tag r).moveSlot tag r ph = s.moveSlot tag r ph := by
  unfold State.moveSlot State.decoded onSlot State.onFront
  simp only [List.map_map]
  congr 2
  refine List.map_congr_left fun y _ => ?_
  dsimp only [Function.comp_apply]
  by_cases hy : y.txn.tag = tag
  · simp [hy]
  · simp [hy]

/-- A slot with a transaction is there, and its key not lost. -/
def Outstanding (t : Txn) (s : State) : Prop := ∃ x, findSlot s t.tag = some x ∧ x.txn = t ∧ x.keyLost = false

theorem serving_decoded {t : Txn} {s : State} (h : Outstanding t s) (r : Region) : Serving t r (s.decoded t.tag r) := by
  obtain ⟨x, hx, htxn, hlost⟩ := h
  refine ⟨⟨{ x with region := some r }, ?_, htxn, rfl, fun _ => hlost⟩, fun y hy htag => ?_⟩
  · exact find?_map_ite_self (fun y : Slot => y.txn.tag == t.tag) (fun y => { y with region := some r }) s.front.slots
      (fun _ hy => hy) hx
  · obtain ⟨z, -, rfl⟩ := List.mem_map.mp hy
    split at htag
    · next hz => rw [if_pos hz]
    · next hne => exact absurd (by simpa using htag) hne

theorem refused_decoded (t : Txn) (r : Region) (k : Kind) (why : Reason) (s : State) :
    (s.decoded t.tag r).refused t r k why = s.refused t r k why := by
  unfold State.refused
  rw [moveSlot_decoded]
  rfl

theorem LineEnters.of_decoded {t : Txn} {r : Region} {l : BackLine} {d : Line} {s u : State}
    (h : LineEnters t r l d (s.decoded t.tag r) u) : LineEnters t r l d s u := by
  intro stored hplain hkey
  obtain ⟨hu, hw⟩ := h stored hplain hkey
  rw [moveSlot_decoded] at hu
  exact ⟨hu, hw⟩

theorem Serves.of_decoded {t : Txn} {r : Region} {l : BackLine} {s u : State} (h : Serves t r l (s.decoded t.tag r) u) :
    Serves t r l s u := by
  obtain ⟨hread, hnone, hwrite⟩ := h
  refine ⟨fun hcase => ?_, fun hdir hen => ?_, fun hdir hen hcase => ?_⟩
  · have := hread hcase
    rw [moveSlot_decoded, moveSlot_decoded] at this
    exact this
  · rw [hnone hdir hen, moveSlot_decoded]
  · have := hwrite hdir hen hcase
    rw [moveSlot_decoded] at this
    by_cases hmay : mayEnter (.front t.tag) s = true
    · rw [if_pos hmay]
      rw [if_pos (by exact hmay)] at this
      exact this.of_decoded
    · rw [if_neg hmay]
      rw [if_neg (by exact hmay)] at this
      exact this

theorem GoesOn.of_decoded {t : Txn} {p : Page} {s u : State} (h : GoesOn t p (s.decoded t.tag .key) u) : GoesOn t p s u := by
  unfold GoesOn at *
  rw [show domState (s.decoded t.tag .key) t.dom = domState s t.dom from rfl] at h
  cases hout : classOutcome (domState s t.dom) t p with
  | served =>
    rw [hout] at h
    exact Serves.of_decoded h
  | refused k why =>
    rw [hout] at h
    dsimp only at h
    rwa [refused_decoded] at h
  | handed =>
    rw [hout] at h
    dsimp only at h
    rw [moveSlot_decoded] at h
    exact h

theorem findSlot_append_newSlot {s : State} {t : Txn} (h : ∀ x ∈ s.front.slots, x.txn.tag ≠ t.tag) (held : Option Txn) :
    findSlot { s with front := { s.front with held := held, slots := s.front.slots ++ [newSlot t] } } t.tag =
      some (newSlot t) := by
  unfold findSlot
  rw [List.find?_append]
  have hnone : s.front.slots.find? (fun x => x.txn.tag == t.tag) = none :=
    List.find?_eq_none.mpr fun x hx => by simpa using h x hx
  rw [hnone]
  simp [newSlot]

theorem acceptable_of_presentable {s : State} {t : Txn} (h : Presentable t s) : acceptable s t = true := by
  obtain ⟨-, -, hlen, htags⟩ := h
  simp only [acceptable, Bool.and_eq_true, decide_eq_true_eq, Bool.not_eq_true', List.any_eq_false, beq_iff_eq]
  exact ⟨hlen, htags⟩

theorem lineBusy_of_lineFree {s : State} {l : FrontLine} (h : LineFree l s) : lineBusy s l = false := by
  simp only [lineBusy, List.any_eq_false, beq_iff_eq]
  exact h

theorem lineBusy_iff {s : State} {l : FrontLine} : lineBusy s l = true ↔ ∃ x ∈ s.front.slots, x.txn.line = l := by
  simp [lineBusy]

/-- The row at which a transaction starts carries out its start on the state with its slot taken. -/
theorem StartsAs.exec_eq {c : Instr} {t : Txn} {s s₀ : State} (hpulse : PulseTaken s) (h : StartsAs c t s s₀) :
    exec c s = .next (startTxn t.tag s₀) ∧ live s₀ = true ∧ Outstanding t s₀ := by
  have hafter := afterPulse_of_taken hpulse
  rcases h with ⟨rfl, hpres, hfree, rfl⟩ | ⟨rfl, hheld, hpres, hfree, rfl⟩ | ⟨rfl, hlive, rfl, x, hx, rfl, hphase, hlost, hold⟩
  · have hacc := acceptable_of_presentable hpres
    obtain ⟨hlive, hnone, -, htags⟩ := hpres
    refine ⟨?_, hlive, newSlot t, ?_, rfl, rfl⟩
    · show execFrontTransaction t s = _
      rw [execFrontTransaction, hafter, presentTxn, if_pos ⟨hlive, hnone⟩, if_pos hacc, accept,
        if_neg (by rw [lineBusy_of_lineFree hfree]; nofun)]
      rfl
    · exact findSlot_append_newSlot htags s.front.held
  · have hacc := acceptable_of_presentable hpres
    obtain ⟨hlive, -, -, htags⟩ := hpres
    refine ⟨?_, hlive, newSlot t, ?_, rfl, rfl⟩
    · show execHeldTransactionAccepted s = _
      rw [execHeldTransactionAccepted, hafter]
      simp only [acceptHeld, hheld]
      have hline : lineBusy (s.onFront fun p => { p with held := none }) t.line = false := lineBusy_of_lineFree (s := s) hfree
      rw [if_pos ⟨hlive, hacc⟩, accept, if_neg (by rw [hline]; nofun)]
      rfl
    · exact findSlot_append_newSlot htags none
  · refine ⟨?_, hlive, x, hx, rfl, hlost⟩
    show execFollowingStart x.txn.tag s₀ = _
    rw [execFollowingStart, hafter]
    simp only [startFollowing, hx]
    rw [if_pos ⟨hlive, hphase, hold⟩]

/-- What the start leaves of the state before: only the Front Port has changed. -/
theorem StartsAs.front_only {c : Instr} {t : Txn} {s s₀ : State} (h : StartsAs c t s s₀) :
    ∃ p, s₀ = { s with front := p } ∧ p.pabCopy = s.front.pabCopy := by
  rcases h with ⟨-, -, -, rfl⟩ | ⟨-, -, -, -, rfl⟩ | ⟨-, -, rfl, -⟩
  · exact ⟨_, rfl, rfl⟩
  · exact ⟨_, rfl, rfl⟩
  · exact ⟨_, rfl, rfl⟩

/-- Settles O4: the port refuses to take what it cannot accept, and a slot behind its line only waits. -/
theorem portHoldsAndOrders : Obligations.PortHoldsAndOrders := by
  unfold Obligations.PortHoldsAndOrders
  have hfull {s : State} {t : Txn} (h : 16 ≤ s.front.slots.length ∨ ∃ x ∈ s.front.slots, x.txn.tag = t.tag) :
      acceptable s t = false := by
    simp only [acceptable, Bool.and_eq_false_iff, decide_eq_false_iff_not, Bool.not_eq_false', List.any_eq_true, beq_iff_eq]
    exact h.imp_left fun h => Nat.not_lt.mpr h
  refine ⟨fun t s hlive hnone hpulse hcase => ?_, fun t t' s hheld hpulse => ⟨?_, fun hcase => ?_⟩,
    fun t s hpulse hbusy => ⟨fun hpres => ?_, fun hheld hpres => ?_⟩⟩
  · show execFrontTransaction t s = _
    rw [execFrontTransaction, afterPulse_of_taken hpulse, presentTxn, if_pos ⟨hlive, hnone⟩, hfull hcase]
    rfl
  · show execFrontTransaction t s = _
    rw [execFrontTransaction, afterPulse_of_taken hpulse, presentTxn, if_neg (by simp [hheld])]
  · show execHeldTransactionAccepted s = _
    rw [execHeldTransactionAccepted, afterPulse_of_taken hpulse]
    simp [acceptHeld, hheld, hfull hcase]
  · show execFrontTransaction t s = _
    rw [execFrontTransaction, afterPulse_of_taken hpulse, presentTxn, if_pos ⟨hpres.1, hpres.2.1⟩,
      acceptable_of_presentable hpres, if_pos rfl, accept, if_pos (lineBusy_iff.mpr hbusy)]
    rfl
  · show execHeldTransactionAccepted s = _
    rw [execHeldTransactionAccepted, afterPulse_of_taken hpulse]
    simp only [acceptHeld, hheld]
    have hacc := acceptable_of_presentable hpres
    have hline : lineBusy (s.onFront fun p => { p with held := none }) t.line = true := lineBusy_iff.mpr hbusy
    rw [if_pos ⟨hpres.1, hacc⟩, accept, if_pos hline]
    rfl


/-! ## Starts by region -/

section Starts

variable {t : Txn} {s : State}

theorem regionServed_eq {c : CabState} {r : Region} (h : r = .key ∨ r = .map) :
    regionServed c r = decide (c = .ready) := by
  rcases h with rfl | rfl <;> cases c <;> rfl

theorem regionServed_raw {c : CabState} : regionServed c .raw = decide (c = .ready ∨ c = .restore) := by
  cases c <;> rfl

theorem Outstanding.refuse_eq (h : Outstanding t s) (r : Region) (k : Kind) (why : Reason) :
    refuse t.tag k why (onSlot t.tag (fun y => { y with region := some r }) s) = s.refused t r k why := by
  rw [← refused_decoded]
  exact (serving_decoded h r).refuse_eq k why

theorem startTxn_plain (h : Outstanding t s) (hr : regionOf t.line = .plain) : startTxn t.tag s =
    if s.cab.cabinet ≠ .blank ∧ inProtectedArea s.front.pabCopy (plainLine t.line) = true then
      s.refused t .plain .shadow .noReason
    else servePlain t.tag t (s.decoded t.tag .plain) := by
  have hrefuse := h.refuse_eq .plain
  obtain ⟨x, hx, rfl, -⟩ := h
  simp only [startTxn, hx, hr, hrefuse]
  rfl

theorem startTxn_unclaimed (h : Outstanding t s) (hr : regionOf t.line = .unclaimed) :
    startTxn t.tag s = s.refused t .unclaimed .nowhere .noReason := by
  have hrefuse := h.refuse_eq .unclaimed
  obtain ⟨x, hx, rfl, -⟩ := h
  simp only [startTxn, hx, hr, hrefuse]

theorem startTxn_key (h : Outstanding t s) (hr : regionOf t.line = .key) : startTxn t.tag s =
    if s.cab.cabinet ≠ .ready then s.refused t .key .unready .noReason
    else if admits (domState s t.dom) t.dir = true then lookupKey t.tag t (s.decoded t.tag .key)
    else s.refused t .key .closed .noReason := by
  have hrefuse := h.refuse_eq .key
  obtain ⟨x, hx, rfl, -⟩ := h
  simp only [startTxn, hx, hr, hrefuse, regionServed_eq (.inl rfl), decide_eq_true_eq, ite_not, admitKey]
  rfl

theorem startTxn_map (h : Outstanding t s) (hr : regionOf t.line = .map) : startTxn t.tag s =
    if s.cab.cabinet ≠ .ready then s.refused t .map .unready .noReason
    else if t.dom ≠ 0#6 then s.refused t .map .denied .domain
    else if t.priv = .app then s.refused t .map .denied .privilege
    else serveMap t.tag t (s.decoded t.tag .map) := by
  have hrefuse := h.refuse_eq .map
  obtain ⟨x, hx, rfl, -⟩ := h
  simp only [startTxn, hx, hr, hrefuse, regionServed_eq (.inr rfl), decide_eq_false_iff_not]
  rfl

theorem startTxn_raw (h : Outstanding t s) (hr : regionOf t.line = .raw) : startTxn t.tag s =
    if ¬(s.cab.cabinet = .ready ∨ s.cab.cabinet = .restore) then s.refused t .raw .unready .noReason
    else if t.dom ≠ 0#6 then s.refused t .raw .denied .domain
    else if t.priv = .app then s.refused t .raw .denied .privilege
    else serveRaw t.tag t (s.decoded t.tag .raw) := by
  have hrefuse := h.refuse_eq .raw
  obtain ⟨x, hx, rfl, -⟩ := h
  simp only [startTxn, hx, hr, hrefuse, regionServed_raw, decide_eq_false_iff_not]
  rfl

theorem servePlain_serves (hlive : live s = true) (h : Serving t .plain s) :
    Serves t .plain (plainLine t.line) s (servePlain t.tag t s) := by
  refine h.serves hlive (by simp) (fun hcase => ?_) (fun hdir hen => ?_) (fun hdir hen _ => ?_)
  · have hdir : t.dir = .read := hcase.resolve_right fun h => h.2.2 rfl
    simp only [servePlain, hdir]
  · simp only [servePlain, hdir, hen, if_true]
  · simp only [servePlain, hdir, hen, if_false]

theorem serveRaw_serves (hlive : live s = true) (h : Serving t .raw s) :
    Serves t .raw (rawLine s.front.pabCopy t.line) s (serveRaw t.tag t s) := by
  refine h.serves hlive (by simp) (fun hcase => ?_) (fun hdir hen => ?_) (fun hdir hen hcase => ?_)
  · rcases hcase with hdir | ⟨hzero, hall, -⟩
    · simp only [serveRaw, hdir]
    · cases hdir : t.dir with
      | read => simp only [serveRaw, hdir]
      | write => simp only [serveRaw, hdir, hzero, hall, if_false]
  · simp only [serveRaw, hdir, hen, if_true]
  · have hall : t.enables = allMarks := hcase.resolve_right (by nofun)
    simp only [serveRaw, hdir, hall, if_true]
    rw [if_neg (by decide)]

theorem findUpdate_isSome_iff {k : MapLine} : (findUpdate s k).isSome = true ↔ ∃ v ∈ s.maps.updates, v.line = k := by
  simp [findUpdate]

/-- A map-window transaction (R15, R16, R32, R34), in the region decoded for it. -/
theorem serveMap_eq (h : Serving t .map s) : serveMap t.tag t s =
    match t.dir with
    | .read =>
      if (findUpdate s (mapWindowLine t.line)).isSome = true then s.moveSlot t.tag .map .mapReadHeld
      else offerRead t.tag (mapBackLine s.front.pabCopy (mapWindowLine t.line)) s
    | .write =>
      if t.enables = 0#64 then s.moveSlot t.tag .map (.responding .done zeroLine)
      else { s.moveSlot t.tag .map .updateWait with
        maps := { s.maps with requests := s.maps.requests ++ [.kernel t.tag (mapWindowLine t.line)] } } := by
  unfold serveMap
  rw [h.setPhase_eq, h.setPhase_eq, h.respondDone_eq]
  rfl

/-! Lookup and placement (R52, R58) -/

theorem Serving.lookupKey_finds {p : Page} {t' : Translation} (hlive : live s = true) (h : Serving t .key s)
    (hfinds : Finds t.dom (keyFpn t.line) s.xlat p t') :
    GoesOn t p { s with xlat := t' } (lookupKey t.tag t s) := by
  have hlookup := Translation.lookup_of_finds hfinds
  simp only [lookupKey, hlookup]
  exact (h.congr (u := { s with xlat := t' }) rfl).classCheck_goesOn (by exact hlive) p

theorem lookupKey_misses (h : Misses t.dom (keyFpn t.line) s.xlat) :
    lookupKey t.tag t s = placeMiss t.tag t.dom (keyFpn t.line) s := by
  have hlookup := Translation.lookup_of_misses h
  simp only [lookupKey, hlookup]
  rfl

variable {d : DomId} {f : Fpn}

theorem Serving.joinWalk_eq (h : Serving t .key s) : joinWalk t.tag d f s =
    { s.moveSlot t.tag .key .walkWaiter with
      xlat := { s.xlat with walks := joinedWalks d f t.tag s.xlat.walks } } := by
  rw [joinWalk, h.setPhase_eq, State.onXlat, joinedWalks_eq]
  rfl

theorem Serving.waitForWalk_eq (h : Serving t .key s) (released : Bool) : waitForWalk t.tag released s =
    { s.moveSlot t.tag .key .walkWaiting with
      xlat := { s.xlat with waiting := s.xlat.waiting ++ [{ tag := t.tag, released := released }] } } := by
  rw [waitForWalk, h.setPhase_eq]
  rfl

theorem missPlace_eq_join {t : Translation} {w : Walk} (hw : t.walkFor d f = some w) (hstale : w.stale = false) :
    missPlace t d f = .join := by
  simp [missPlace, hw, hstale]

theorem missPlace_eq_start {t : Translation} (hw : t.walkFor d f = none) (hlen : t.walks.length < 4) :
    missPlace t d f = .start := by
  simp [missPlace, hw, Limit.walks, hlen]

theorem missPlace_eq_wait {t : Translation}
    (h : (∃ w, t.walkFor d f = some w ∧ w.stale = true) ∨ t.walkFor d f = none ∧ 4 ≤ t.walks.length) :
    missPlace t d f = .wait := by
  rcases h with ⟨w, hw, hstale⟩ | ⟨hw, hlen⟩
  · simp [missPlace, hw, hstale]
  · simp [missPlace, hw, Limit.walks, Nat.not_lt.mpr hlen]

end Starts

/-- Settles O6: each check of R8 in turn, and what the Event Unit makes of a report. -/
theorem startRefusals : Obligations.StartRefusals := by
  unfold Obligations.StartRefusals
  refine ⟨fun c t s s₀ hpulse hstart => ?_, by decide, fun r e => ?_⟩
  · obtain ⟨hexec, -, hout⟩ := hstart.exec_eq hpulse
    obtain ⟨p, rfl, hpab⟩ := hstart.front_only
    rw [hexec]
    refine ⟨fun hr => ?_, fun hr hcab harea => ?_, fun r hr hcase hcab => ?_, fun hr hready hrestore => ?_,
      fun r hr hcase => ⟨fun hdom => ?_, fun hdom hpriv => ?_⟩, fun hr hcab hcase => ?_⟩
    · rw [startTxn_unclaimed hout hr]
    · rw [startTxn_plain hout hr, if_pos ⟨hcab, by rw [← harea, ← hpab]⟩]
    · rcases hcase with rfl | rfl
      · rw [startTxn_key hout hr, if_pos hcab]
      · rw [startTxn_map hout hr, if_pos hcab]
    · rw [startTxn_raw hout hr, if_pos (by rintro (h | h) <;> contradiction)]
    · rcases hcase with ⟨rfl, hcab⟩ | ⟨rfl, hcab⟩
      · rw [startTxn_map hout hr, if_neg (not_not.mpr hcab), if_pos hdom]
      · rw [startTxn_raw hout hr, if_neg (not_not.mpr hcab), if_pos hdom]
    · rcases hcase with ⟨rfl, hcab⟩ | ⟨rfl, hcab⟩
      · rw [startTxn_map hout hr, if_neg (not_not.mpr hcab), if_neg (not_not.mpr hdom), if_pos hpriv]
      · rw [startTxn_raw hout hr, if_neg (not_not.mpr hcab), if_neg (not_not.mpr hdom), if_pos hpriv]
    · have hno : admits (domState s t.dom) t.dir = false := by
        rcases hcase with h | h | ⟨h, hdir⟩
        · rw [h]; rfl
        · rw [h]; rfl
        · rw [h, hdir]; rfl
      rw [startTxn_key hout hr, if_neg (not_not.mpr hcab), if_neg (by exact fun h => Bool.false_ne_true (hno.symm.trans h))]
  · refine ⟨fun h => ?_, fun o h => ⟨?_, fun hlt => ?_, fun hle => ?_⟩, ?_, fun i hi => ?_, rfl, rfl⟩
    · simp [EventUnit.take, h, recordAfter]
    · simp [EventUnit.take, h]
    · simp [EventUnit.take, h, recordAfter, hlt]
    · simp [EventUnit.take, h, recordAfter, Nat.not_lt.mpr hle]
    · have : e.count.toNat < 65536 := e.count.isLt
      simp only [EventUnit.take]
      split
      · next h => rw [h]; rfl
      · next h =>
        have : e.count.toNat ≠ 65535 := fun h' => h (BitVec.eq_of_toNat_eq h')
        rw [BitVec.toNat_add]
        simp
        omega
    · have hmark : ∀ j, j < 11 → Flag.refusal.mark.getLsbD j = decide (j = 4) := by decide
      simp only [EventUnit.take, BitVec.getLsbD_or, hmark i hi, Bool.or_comm]

/-- Settles O5: the equation of the start in each region, with service, lookup and placement of a miss as lemmas. -/
theorem transactionStarts : Obligations.TransactionStarts := by
  unfold Obligations.TransactionStarts
  intro c t s s₀ hpulse hstart
  obtain ⟨hexec, hlive, hout⟩ := hstart.exec_eq hpulse
  obtain ⟨p, rfl, hpab⟩ := hstart.front_only
  rw [hexec]
  refine ⟨fun hr hok => ?_, fun hr hcab hdom hpriv => ?_, fun hr hcab hdom hpriv => ?_, fun hr hcab hadm => ?_⟩
  · refine ⟨_, rfl, ?_⟩
    rw [startTxn_plain hout hr, if_neg]
    · exact (servePlain_serves (by exact hlive) (serving_decoded hout .plain)).of_decoded
    · rintro ⟨hcab, harea⟩
      rcases hok with h | h
      · exact hcab h
      · rw [hpab, h] at harea
        exact Bool.false_ne_true harea
  · refine ⟨_, rfl, ?_⟩
    rw [startTxn_raw hout hr, if_neg (not_not.mpr hcab), if_neg (not_not.mpr hdom), if_neg (by rw [hpriv]; nofun), ← hpab]
    exact (serveRaw_serves (by exact hlive) (serving_decoded hout .raw)).of_decoded
  · rw [startTxn_map hout hr, if_neg (not_not.mpr hcab), if_neg (not_not.mpr hdom), if_neg (by rw [hpriv]; nofun)]
    have hserving := serving_decoded hout .map
    rw [serveMap_eq hserving]
    have hupdate : (findUpdate (State.decoded t.tag .map { s with front := p }) (mapWindowLine t.line)).isSome = true ↔
        ∃ v ∈ s.maps.updates, v.line = mapWindowLine t.line := findUpdate_isSome_iff
    have hm : mayEnter (.front t.tag) (State.decoded t.tag .map { s with front := p }) = mayEnter (.front t.tag) s :=
      mayEnter_congr _ rfl rfl
    have hfree (h : ∀ v ∈ s.maps.updates, v.line ≠ mapWindowLine t.line) :
        ¬(findUpdate (State.decoded t.tag .map { s with front := p }) (mapWindowLine t.line)).isSome = true := by
      rw [hupdate]
      push Not
      exact h
    refine ⟨fun hdir hbusy => ?_, fun hdir hno hmay => ?_, fun hdir hno hmay => ?_, fun hdir hen => ?_, fun hdir hen => ?_⟩
    · simp only [hdir, if_pos (hupdate.mpr hbusy), moveSlot_decoded]
    · simp only [hdir, if_neg (hfree hno), hserving.offerRead_eq, ← hpab, moveSlot_decoded]
      rw [if_pos (hm.trans hmay)]
      rfl
    · simp only [hdir, if_neg (hfree hno), hserving.offerRead_eq, ← hpab, moveSlot_decoded]
      rw [if_neg (by rw [hm, hmay]; nofun)]
      rfl
    · simp only [hdir, hen, if_true, moveSlot_decoded]
    · simp only [hdir, hen, if_false, moveSlot_decoded]
      rfl
  · have hyes : admits (domState s t.dom) t.dir = true := by
      rcases hadm with h | ⟨h, hdir⟩
      · rw [h]; rfl
      · rw [h, hdir]; rfl
    rw [startTxn_key hout hr, if_neg (not_not.mpr hcab), if_pos (by exact hyes)]
    have hserving := serving_decoded hout .key
    refine ⟨fun p' t' hfinds => ⟨_, rfl, ?_⟩, fun hmiss => ?_⟩
    · exact (hserving.lookupKey_finds (by exact hlive) hfinds).of_decoded (s := { s with front := p, xlat := t' })
    · rw [lookupKey_misses (by exact hmiss)]
      refine ⟨fun w hw hstale => ?_, fun hw hlen => ?_, fun released hcase => ?_⟩
      · rw [placeMiss, missPlace_eq_join (t := (State.decoded t.tag .key { s with front := p }).xlat) (by exact hw) hstale]
        simp only [hserving.joinWalk_eq, moveSlot_decoded]
        rfl
      · rw [placeMiss, missPlace_eq_start (t := (State.decoded t.tag .key { s with front := p }).xlat) (by exact hw) (lt_of_le_of_lt (Nat.le_add_right ..) hlen)]
        simp only
        have hroom : (State.decoded t.tag .key { s with front := p }).xlat.walks.length +
            ((State.decoded t.tag .key { s with front := p }).xlat.waiting.filter fun w => w.released).length <
              Limit.walks := hlen
        rw [if_pos hroom, hserving.setPhase_eq, moveSlot_decoded, startWalk_eq (by exact hw)]
      · have hplace : placeMiss t.tag t.dom (keyFpn t.line) (State.decoded t.tag .key { s with front := p }) =
            waitForWalk t.tag released (State.decoded t.tag .key { s with front := p }) := by
          rcases hcase with ⟨h, rfl⟩ | ⟨hw, hlen, rfl⟩ | ⟨hw, hlen, hfull, rfl⟩
          · rw [placeMiss, missPlace_eq_wait (t := (State.decoded t.tag .key { s with front := p }).xlat) (by exact .inl h)]
          · rw [placeMiss, missPlace_eq_wait (t := (State.decoded t.tag .key { s with front := p }).xlat) (by exact .inr ⟨hw, hlen⟩)]
          · rw [placeMiss, missPlace_eq_start (t := (State.decoded t.tag .key { s with front := p }).xlat) (by exact hw) (by exact hlen)]
            simp only
            exact if_neg (Nat.not_lt.mpr hfull)
        rw [hplace, hserving.waitForWalk_eq, moveSlot_decoded]
        rfl

/-- Under the law of the slots, the slot of a transaction is the only one with its tag. -/
theorem eq_of_findSlot {s : State} {tag : Tag} {x y : Slot} (hslots : SlotLaw s) (hx : findSlot s tag = some x)
    (hy : y ∈ s.front.slots) (htag : y.txn.tag = tag) : y = x :=
  List.inj_on_of_nodup_map hslots.2 hy (List.mem_of_find?_eq_some hx) (htag.trans (tag_of_findSlot s hx).symm)

theorem serving_of_slotLaw {s : State} {x : Slot} {r : Region} {tag : Tag} (hslots : SlotLaw s)
    (hx : findSlot s tag = some x) (hr : x.region = some r) (hlost : r = .key → x.keyLost = false) : Serving x.txn r s := by
  have htag : x.txn.tag = tag := tag_of_findSlot s hx
  refine ⟨⟨x, by rw [htag]; exact hx, rfl, hr, hlost⟩, fun y hy hytag => ?_⟩
  rw [eq_of_findSlot hslots hx hy (hytag.trans htag), hr]

/-- Settles O10: the re-check, the lookup repeated, and where a miss goes. -/
theorem waitingLookupRepeats : Obligations.WaitingLookupRepeats := by
  unfold Obligations.WaitingLookupRepeats
  rintro s gone w x d f hpulse hlive hslots hw hx hr hlost rfl rfl rfl
  have htag : x.txn.tag = w.tag := tag_of_findSlot s hx
  have hexec : exec .waitingLookupRepeat s = .next (repeatLookup w s) := by
    show execWaitingLookupRepeat s = _
    rw [execWaitingLookupRepeat, afterPulse_of_taken hpulse]
    simp only [repeatFirst, hw, hlive, if_true]
  rw [hexec]
  have hserving : Serving x.txn .key { s with xlat := { s.xlat with waiting := s.xlat.waiting.erase w } } :=
    (serving_of_slotLaw hslots hx hr fun _ => hlost).congr rfl
  have hgone : s.onXlat (fun t => { t with waiting := t.waiting.erase w }) =
      { s with xlat := { s.xlat with waiting := s.xlat.waiting.erase w } } := rfl
  rw [← htag]
  refine ⟨fun hno => ?_, fun hyes => ⟨fun p t' hfinds => ⟨_, rfl, ?_⟩, fun hmiss => ?_⟩⟩
  · rw [repeatLookup]
    simp only [hx, hno, if_true]
    rw [hgone, ← htag, hserving.refuse_eq]
  · have hlookup := Translation.lookup_of_finds hfinds
    rw [repeatLookup]
    simp only [hx, hyes, Bool.true_eq_false, if_false, hgone, hlookup]
    rw [← htag]
    exact (hserving.congr (u := { s with xlat := t' }) rfl).classCheck_goesOn (by exact hlive) p
  · have hlookup := Translation.lookup_of_misses
      (t := { s.xlat with waiting := s.xlat.waiting.erase w }) (d := x.txn.dom) (f := keyFpn x.txn.line) hmiss
    refine ⟨fun hno hlen => ?_, fun v hv hstale => ?_, fun hcase => ?_⟩
    · rw [repeatLookup]
      simp only [hx, hyes, Bool.true_eq_false, if_false, hgone, hlookup, missPlace_eq_start hno hlen]
      rw [← htag, ← startWalk_eq (by exact hno), ← hserving.setPhase_eq]
    · rw [repeatLookup]
      simp only [hx, hyes, Bool.true_eq_false, if_false, hgone, hlookup, missPlace_eq_join hv hstale]
      rw [← htag]
      exact congrArg Host.Outcome.next hserving.joinWalk_eq
    · rw [repeatLookup]
      simp only [hx, hyes, Bool.true_eq_false, if_false, hgone, hlookup, missPlace_eq_wait hcase]
      simp [State.onXlat]


/-! ## Deliveries -/

/-- The oldest transaction to a front line: the slots are cut before it. -/
theorem oldestOnLine_of_before {s : State} {x : Slot} {before after : List Slot} (hcut : s.front.slots = before ++ x :: after)
    (hbefore : ∀ y ∈ before, y.txn.line ≠ x.txn.line) :
    s.front.slots.find? (fun y => y.txn.line == x.txn.line) = some x ∧ oldestOnLine s x = true := by
  have hfind : s.front.slots.find? (fun y => y.txn.line == x.txn.line) = some x := by
    rw [hcut, List.find?_append, List.find?_eq_none.mpr fun y hy => by simpa using hbefore y hy]
    simp
  exact ⟨hfind, by simp [oldestOnLine, hfind]⟩

/-- A response is delivered: the slot is freed and the next transaction to its line starts. -/
theorem deliver_of_oldest {s : State} {tag : Tag} {x : Slot} {st : Status} {data : Line} (hlive : live s = true)
    (hx : findSlot s tag = some x) (hphase : x.phase = .responding st data) (hold : oldestOnLine s x = true) :
    deliver tag s = startNext x.txn.line { s with front := { s.front with
      slots := s.front.slots.filter (fun y => y.txn.tag != tag), response := some (responseOf x.txn st data) } } := by
  simp only [deliver, hx, hphase, hlive, hold, and_self, if_true]
  rfl

theorem responseOf_eq (t : Txn) (st : Status) (data : Line) : responseOf t st data =
    { tag := t.tag, status := st, beats := if t.dir = .read then
        [0, 1, 2, 3, 4, 5, 6, 7].map (fun i : Fin 8 => lineBeat data (Fin.ofNat 8 (t.beat.toNat + i.val))) else [] } := rfl

/-- An operation on transactions leaves the transaction held, the copy of PAB and the response delivered last. -/
structure PortKept (s t : State) : Prop where
  held : t.front.held = s.front.held
  pabCopy : t.front.pabCopy = s.front.pabCopy
  response : t.front.response = s.front.response

namespace PortKept

variable {s t u : State}

theorem of_front (h : t.front = s.front) : PortKept s t := ⟨by rw [h], by rw [h], by rw [h]⟩

theorem refl (s : State) : PortKept s s := ⟨rfl, rfl, rfl⟩

theorem trans (h : PortKept s t) (k : PortKept t u) : PortKept s u :=
  ⟨k.held.trans h.held, k.pabCopy.trans h.pabCopy, k.response.trans h.response⟩

theorem ite {c : Prop} [Decidable c] (h : PortKept s t) (k : PortKept s u) : PortKept s (if c then t else u) := by
  split
  · exact h
  · exact k

end PortKept

section Port

variable (s : State)

theorem setPhase_port (tag : Tag) (ph : Phase) : PortKept s (setPhase tag ph s) := ⟨rfl, rfl, rfl⟩

theorem refuse_port (tag : Tag) (k : Kind) (r : Reason) : PortKept s (refuse tag k r s) := by
  unfold refuse
  split <;> exact ⟨rfl, rfl, rfl⟩

theorem demapBy_port (hit : Page → Bool) : PortKept s (demapBy hit s) := by
  unfold demapBy raiseIf raise
  split
  · split <;> exact .of_front rfl
  · exact .of_front rfl

theorem rawWatch_port (k : MapLine) : PortKept s (rawWatch k s) := by
  unfold rawWatch
  generalize mapLinePairs k = l
  have hfold (u : State) : PortKept u (l.foldl (fun u p => pageDemap p.1 p.2 u) u) := by
    induction l generalizing u with
    | nil => exact .refl u
    | cons p l ih => exact (demapBy_port u _).trans (ih _)
  exact PortKept.trans (t := markStale k s) (.of_front rfl) (hfold _)

theorem enterFront_port (tag : Tag) : PortKept s (enterFront tag s) := by
  have hraw (k : MapLine) (u : State) (hu : u.front = s.front) : PortKept s (respondDone tag (rawWatch k u)) :=
    ((PortKept.of_front hu).trans (rawWatch_port u k)).trans (setPhase_port _ _ _)
  unfold enterFront
  split
  · exact .refl s
  · split
    · exact ⟨rfl, rfl, rfl⟩
    · split
      · exact ⟨rfl, rfl, rfl⟩
      · split
        · exact hraw _ _ rfl
        · exact ⟨rfl, rfl, rfl⟩
      · split
        · exact ⟨rfl, rfl, rfl⟩
        · exact refuse_port s _ _ _
      · exact .refl s
    · exact .refl s

theorem offerFront_port (tag : Tag) : PortKept s (offer (.front tag) s) :=
  .ite (enterFront_port s tag) (.of_front (by rw [beginWait_back]))

theorem offerRead_port (tag : Tag) (l : BackLine) : PortKept s (offerRead tag l s) :=
  (setPhase_port s _ _).trans (offerFront_port _ tag)

theorem offerWrite_port (tag : Tag) (l : BackLine) (d : Line) : PortKept s (offerWrite tag l d s) :=
  (setPhase_port s _ _).trans (offerFront_port _ tag)

theorem serveKey_port (tag : Tag) (t : Txn) (p : Page) : PortKept s (serveKey tag t p s) := by
  unfold serveKey
  dsimp only
  split
  · exact offerRead_port s _ _
  · exact .ite (setPhase_port s _ _) (.ite (offerWrite_port s _ _ _) (offerRead_port s _ _))

theorem classCheck_port (tag : Tag) (p : Page) : PortKept s (classCheck tag p s) := by
  unfold classCheck
  split
  · exact .refl s
  · refine .ite (refuse_port s _ _ _) ?_
    split
    · exact refuse_port s _ _ _
    · exact .ite (serveKey_port s _ _ _) (refuse_port s _ _ _)
    · exact serveKey_port s _ _ _
    · exact serveKey_port s _ _ _
    · exact .ite (serveKey_port s _ _ _) (refuse_port s _ _ _)
    · exact ⟨rfl, rfl, rfl⟩

theorem startWalk_port (d : DomId) (f : Fpn) (ws : List Tag) (lock : Bool) : PortKept s (startWalk d f ws lock s) :=
  PortKept.ite (.of_front rfl) (.of_front (by rw [beginWait_back]; rfl))

theorem lookupKey_port (tag : Tag) (t : Txn) : PortKept s (lookupKey tag t s) := by
  unfold lookupKey
  dsimp only
  split
  · exact PortKept.trans (t := s.onXlat fun _ => (s.xlat.lookup t.dom (keyFpn t.line)).2) (.of_front rfl) (classCheck_port _ _ _)
  · unfold placeMiss
    split
    · exact ⟨rfl, rfl, rfl⟩
    · exact .ite (PortKept.trans (t := setPhase tag .walkWaiter (s.onXlat _)) ⟨rfl, rfl, rfl⟩ (startWalk_port _ _ _ _ _))
        ⟨rfl, rfl, rfl⟩
    · exact ⟨rfl, rfl, rfl⟩

theorem serveMap_port (tag : Tag) (t : Txn) : PortKept s (serveMap tag t s) := by
  unfold serveMap
  dsimp only
  split
  · exact .ite (setPhase_port s _ _) (offerRead_port s _ _)
  · exact .ite (setPhase_port s _ _) ⟨rfl, rfl, rfl⟩

theorem servePlain_port (tag : Tag) (t : Txn) : PortKept s (servePlain tag t s) := by
  unfold servePlain
  split
  · exact offerRead_port s _ _
  · exact .ite (setPhase_port s _ _) (offerWrite_port s _ _ _)

theorem serveRaw_port (tag : Tag) (t : Txn) : PortKept s (serveRaw tag t s) := by
  unfold serveRaw
  dsimp only
  split
  · exact offerRead_port s _ _
  · exact .ite (setPhase_port s _ _) (.ite (offerWrite_port s _ _ _) (offerRead_port s _ _))

theorem startTxn_port (tag : Tag) : PortKept s (startTxn tag s) := by
  unfold startTxn
  split
  · exact .refl s
  · next x _ =>
    dsimp only
    refine PortKept.trans (t := onSlot tag (fun y => { y with region := some (regionOf x.txn.line) }) s) ⟨rfl, rfl, rfl⟩ ?_
    split
    · exact refuse_port _ _ _ _
    · exact .ite (refuse_port _ _ _ _) (servePlain_port _ _ _)
    · exact .ite (.ite (lookupKey_port _ _ _) (refuse_port _ _ _ _)) (refuse_port _ _ _ _)
    · exact .ite (refuse_port _ _ _ _) (.ite (refuse_port _ _ _ _) (.ite (refuse_port _ _ _ _) (serveMap_port _ _ _)))
    · exact .ite (refuse_port _ _ _ _) (.ite (refuse_port _ _ _ _) (.ite (refuse_port _ _ _ _) (serveRaw_port _ _ _)))

end Port

theorem SlotsKept.findSlot_none {s t : State} {tag : Tag} (h : SlotsKept s t) (hs : findSlot s tag = none) :
    findSlot t tag = none := by
  obtain ⟨g, hg, -, hslots⟩ := h
  unfold findSlot at hs ⊢
  rw [hslots]
  rw [List.find?_eq_none] at hs ⊢
  intro y hy
  obtain ⟨x, hx, rfl⟩ := List.mem_map.mp hy
  rw [hg]
  exact hs x hx

theorem startNext_kept (l : FrontLine) (s : State) : SlotsKept s (startNext l s) ∧ PortKept s (startNext l s) := by
  unfold startNext
  split
  · next y _ =>
    split
    · exact ⟨(startTxn_calm s _).slots, startTxn_port s _⟩
    · exact ⟨.of_eq rfl, .refl s⟩
  · exact ⟨.of_eq rfl, .refl s⟩

theorem startNext_lineFree {l : FrontLine} {s : State} (h : LineFree l s) : startNext l s = s := by
  have : s.front.slots.find? (fun y => y.txn.line == l) = none := List.find?_eq_none.mpr fun y hy => by simpa using h y hy
  simp [startNext, this]

/-- Settles O7: the delivery, and what it lets start; a delivery that does anything frees the oldest slot of its line. -/
theorem responseDelivered : Obligations.ResponseDelivered := by
  unfold Obligations.ResponseDelivered
  refine ⟨fun tag s left x st data hpulse hlive hslots hx hphase hold hleft => ?_, fun tag s u hpulse hexec hne => ?_⟩
  · have htag : x.txn.tag = tag := tag_of_findSlot s hx
    have holdest : oldestOnLine s x = true := by
      obtain ⟨-, before, after, hcut, hbefore⟩ := List.find?_eq_some_iff_append.mp hx
      refine (oldestOnLine_of_before hcut fun y hy => hold y ?_).2
      have hneq : ∀ z ∈ before, (z.txn.tag != tag) = true := fun z hz => by simpa using hbefore z hz
      rw [hcut, List.takeWhile_append_of_pos hneq]
      exact List.mem_append_left _ hy
    have hexec : exec (.responseDelivery tag) s = .next (startNext x.txn.line left) := by
      show execResponseDelivery tag s = _
      rw [execResponseDelivery, afterPulse_of_taken hpulse, deliver_of_oldest hlive hx hphase holdest, responseOf_eq, htag,
        ← hleft]
    have hgone : findSlot left tag = none := by
      rw [hleft, findSlot, List.find?_eq_none]
      simp
    have hlive' : live left = true := by rw [hleft]; exact hlive
    have hpulse' : PulseTaken left := by rw [hleft]; exact hpulse
    have hnodup : (left.front.slots.map fun y => y.txn.tag).Nodup := by
      rw [hleft]
      exact hslots.2.sublist (List.filter_sublist.map _)
    obtain ⟨hkept, hport⟩ := startNext_kept x.txn.line left
    refine ⟨_, hexec, hkept.findSlot_none hgone, hport.response, startNext_lineFree, ?_⟩
    intro before y after hcut hline hbefore
    rw [← hline] at hbefore
    obtain ⟨hfind, hold'⟩ := oldestOnLine_of_before hcut hbefore
    rw [hline] at hfind
    have hy : findSlot left y.txn.tag = some y := by
      obtain ⟨z, hz⟩ : ∃ z, findSlot left y.txn.tag = some z :=
        Option.isSome_iff_exists.mp (List.find?_isSome.mpr ⟨y, by simp [hcut], by simp⟩)
      rw [hz, List.inj_on_of_nodup_map hnodup (List.mem_of_find?_eq_some hz) (by simp [hcut]) (tag_of_findSlot left hz)]
    refine ⟨fun hfollow => ?_, fun hnot => ?_⟩
    · show execFollowingStart y.txn.tag left = _
      rw [execFollowingStart, afterPulse_of_taken hpulse']
      simp only [startFollowing, startNext, hy, hfind, hlive', hfollow, hold', and_self, if_true]
    · simp only [startNext, hfind, hnot, if_false]
  · have hdeliver : u = deliver tag s := by
      have : execResponseDelivery tag s = .next u := hexec
      rw [execResponseDelivery, afterPulse_of_taken hpulse] at this
      injection this with h
      exact h.symm
    rw [hdeliver, deliver] at hne
    split at hne
    · next x hx =>
      split at hne
      · next st data hphase =>
        split at hne
        · next hc =>
          obtain ⟨-, hold⟩ := hc
          unfold oldestOnLine at hold
          split at hold
          · next y hy =>
            obtain ⟨-, before, after, hcut, hbefore⟩ := List.find?_eq_some_iff_append.mp hx
            refine ⟨before, x, after, st, data, hcut, tag_of_findSlot s hx, hphase, fun z hz hline => ?_⟩
            obtain ⟨z', hz'⟩ : ∃ z', before.find? (fun y => y.txn.line == x.txn.line) = some z' :=
              Option.isSome_iff_exists.mp (List.find?_isSome.mpr ⟨z, hz, by simpa using hline⟩)
            rw [hcut, List.find?_append, hz', Option.some_or] at hy
            cases hy
            have := hbefore _ (List.mem_of_find?_eq_some hz')
            rw [tag_of_findSlot s hx] at hold
            rw [hold] at this
            exact absurd this (by decide)
          · cases hold
        · exact absurd rfl hne
      · exact absurd rfl hne
    · exact absurd rfl hne

end Sys2Proof.Machine

/-! PROOFS. What enters the Back Queue, and what the bursts of front reads bring (R15, R32, R83, R89, R131, R136, R138). -/

namespace Sys2Proof.Machine

/-! ## Slots under their law -/

section Law

variable {s : State} {tag : Tag} {x : Slot} {r : Region}

theorem regions_of_slotLaw (hslots : SlotLaw s) (hx : findSlot s tag = some x) (hr : x.region = some r) :
    ∀ y ∈ s.front.slots, y.txn.tag = tag → y.region = some r := fun y hy htag => by
  rw [eq_of_findSlot hslots hx hy htag, hr]

theorem setPhase_of_slotLaw (hslots : SlotLaw s) (hx : findSlot s tag = some x) (hr : x.region = some r) (ph : Phase) :
    setPhase tag ph s = s.moveSlot tag r ph :=
  setPhase_eq_moveSlot (regions_of_slotLaw hslots hx hr) ph

theorem refuse_of_slotLaw (hslots : SlotLaw s) (hx : findSlot s tag = some x) (hr : x.region = some r) (k : Kind)
    (why : Reason) : refuse tag k why s = s.refused x.txn r k why := by
  rw [Machine.refuse_eq s k why hx, setPhase_of_slotLaw hslots hx hr]
  simp [State.refused, report, State.onEv, refusalReport, txnReport, hr, State.moveSlot, tag_of_findSlot s hx]

theorem findSlot_of_mem (hslots : SlotLaw s) (hx : x ∈ s.front.slots) : findSlot s x.txn.tag = some x := by
  obtain ⟨z, hz⟩ : ∃ z, findSlot s x.txn.tag = some z :=
    Option.isSome_iff_exists.mp (List.find?_isSome.mpr ⟨x, hx, by simp⟩)
  rw [hz, ← eq_of_findSlot hslots hz hx rfl]

end Law

/-! ## Read bursts -/

/-- The oldest burst has left the data path at its end clock (log entry 49). -/
theorem takeBurst_taken (x : Burst) (s : State) : BurstTaken x s (takeBurst x s) :=
  ⟨rfl, timersOnly_advance x.finish s⟩

theorem arrivingRead_of_head {x : Burst} {o : Origin} {s : State} (h : HeadRead x o s) : arrivingRead s = some x := by
  obtain ⟨hhead, hread, -⟩ := h
  simp [arrivingRead, hhead, hread]

theorem mergeLine_get (old new : Line) (marks : Marks) (i : Fin 64) :
    (mergeLine old new marks)[i] = if marks.getLsbD i.val then new[i] else old[i] := by
  simp [mergeLine]

section FrontRead

variable {s : State} {y : Slot} {r : Region} {l : BackLine} {line : Line}

/-- What is handed over of a line, and how a write of some of its bytes goes on with it (R15, R32, R89). -/
theorem frontRead_clear {clear : Line} (hslots : SlotLaw s) (hy : findSlot s y.txn.tag = some y)
    (hr : y.region = some r)
    (hclear : ((r = .plain ∨ r = .raw) ∧ clear = line) ∨
      (∃ k, r = .key ∧ y.keyLost = false ∧ lineKey s y.txn.dom = some k ∧ clear = decipher k l line) ∨
      ∃ k, r = .map ∧ mapKey s = some k ∧ clear = decipher k l line) :
    (y.txn.dir = .read ∨ r = .plain ∨ r = .map →
      frontRead y l line s = s.moveSlot y.txn.tag r (.responding .done clear)) ∧
    (y.txn.dir = .write → r = .key ∨ r = .raw →
      frontRead y l line s = offerWrite y.txn.tag l (mergeLine clear y.txn.data y.txn.enables) s) := by
  have hdone (d : Line) : respond y.txn.tag .done d s = s.moveSlot y.txn.tag r (.responding .done d) :=
    setPhase_of_slotLaw hslots hy hr _
  rcases hclear with ⟨rfl | rfl, rfl⟩ | ⟨k, rfl, hlost, hk, rfl⟩ | ⟨k, rfl, hk, rfl⟩
  · refine ⟨fun _ => ?_, fun _ h => ?_⟩
    · simp only [frontRead, hr, hdone]
    · rcases h with h | h <;> cases h
  · refine ⟨fun h => ?_, fun hdir _ => ?_⟩
    · have hdir : y.txn.dir = .read := by rcases h with h | h | h; exact h; all_goals cases h
      simp only [frontRead, hr, hdir, hdone]
    · simp only [frontRead, hr, hdir]
  · refine ⟨fun h => ?_, fun hdir _ => ?_⟩
    · have hdir : y.txn.dir = .read := by rcases h with h | h | h; exact h; all_goals cases h
      simp only [frontRead, hr, hlost, Bool.false_eq_true, if_false, hk, hdir, hdone]
    · simp only [frontRead, hr, hlost, Bool.false_eq_true, if_false, hk, hdir]
  · refine ⟨fun _ => ?_, fun _ h => ?_⟩
    · simp only [frontRead, hr, hk, hdone]
    · rcases h with h | h <;> cases h

end FrontRead

/-- Settles O33: what each region makes of the line that has come. -/
theorem readBurstArrives : Obligations.ReadBurstArrives := by
  unfold Obligations.ReadBurstArrives
  intro s x hpulse hlive hslots hhead
  have hexec : exec .readBurst s = .next (readArrives x s) := by
    show execReadBurst s = _
    rw [execReadBurst, afterPulse_of_taken hpulse]
    simp only [finishRead, arrivingRead_of_head hhead, hlive, if_true]
  obtain ⟨-, -, horigin⟩ := hhead
  refine ⟨takeBurst x s, _, hexec, takeBurst_taken x s, fun hnone => ?_, ?_⟩
  · simp only [readArrives, horigin, hnone]
  · rintro y r l hy hr rfl
    have hmem : y ∈ s.front.slots := List.mem_of_find?_eq_some hy
    have hslots' : SlotLaw (takeBurst x s) := hslots
    have hfind : findSlot (takeBurst x s) y.txn.tag = some y := findSlot_of_mem hslots' hmem
    have hread : readArrives x s = frontRead y x.req.line (s.mem.readLine x.req.line) (takeBurst x s) := by
      simp only [readArrives, horigin, hy]
    rw [hread]
    refine ⟨?_, fun clear hclear => ?_⟩
    · rintro rfl hlost
      have hkey : (if y.keyLost = true then none else lineKey (takeBurst x s) y.txn.dom) = none := by
        rcases hlost with h | h
        · rw [if_pos h]
        · split
          · rfl
          · exact h
      simp only [frontRead, hr, hkey]
      exact refuse_of_slotLaw hslots' hfind hr _ _
    · obtain ⟨hdone, hwrite⟩ := frontRead_clear (s := takeBurst x s) hslots' hfind hr hclear
      refine ⟨hdone, fun hdir hcase => ⟨_, mergeLine_get clear y.txn.data y.txn.enables, ?_⟩⟩
      rw [hwrite hdir hcase]
      have hlost : r = .key → y.keyLost = false := by
        rintro rfl
        rcases hclear with ⟨h | h, -⟩ | ⟨k, -, h, -⟩ | ⟨k, h, -⟩
        · cases h
        · cases h
        · exact h
        · cases h
      exact (serving_of_slotLaw hslots' hfind hr hlost).offerWrite_spec (by exact hlive)
        (by rcases hcase with h | h <;> simp [h]) _ _

/-! ## The waiting makers -/

theorem hasRoom_iff {s : State} {w : Waiter} : hasRoom s w = true ↔ Room w s := by
  have hgate : Limit.backgroundGate = 12 := rfl
  have hqueue : Limit.queue = 24 := rfl
  unfold hasRoom Room
  cases w
  case background => simp only [hgate, decide_eq_true_eq, true_implies]; omega
  all_goals simp [hqueue]

theorem firstReady_iff_first {s : State} {w : Waiter} : firstReady s = some w ↔
    ∃ before after, s.back.waiting = before ++ w :: after ∧ Room w s ∧ ∀ v ∈ before, ¬Room v s := by
  unfold firstReady
  rw [List.find?_eq_some_iff_append]
  simp only [hasRoom_iff, Bool.not_eq_true', ← Bool.not_eq_true]
  constructor
  · rintro ⟨hroom, before, after, hcut, hbefore⟩
    exact ⟨before, after, hcut, hroom, fun v hv => by simpa [hasRoom_iff] using hbefore v hv⟩
  · rintro ⟨before, after, hcut, hroom, hbefore⟩
    exact ⟨hroom, before, after, hcut, fun v hv => by simpa [hasRoom_iff] using hbefore v hv⟩

theorem mayEnter_iff {s : State} {w : Waiter} :
    mayEnter w s = true ↔ Room w s ∧ ((∀ v ∈ s.back.waiting, ¬Room v s) ∨ firstReady s = some w) := by
  unfold mayEnter
  cases hfirst : firstReady s with
  | none =>
    have hnone : ∀ v ∈ s.back.waiting, ¬Room v s := fun v hv h =>
      List.find?_eq_none.mp hfirst v hv (hasRoom_iff.mpr h)
    simp only [hasRoom_iff]
    exact ⟨fun h => ⟨h, .inl hnone⟩, fun h => h.1⟩
  | some v =>
    obtain ⟨before, after, hcut, hroom, -⟩ := firstReady_iff_first.mp hfirst
    simp only [beq_iff_eq, Option.some.injEq]
    constructor
    · rintro rfl
      exact ⟨hroom, .inr rfl⟩
    · rintro ⟨-, h | h⟩
      · exact absurd hroom (h v (by simp [hcut]))
      · exact h

/-! ## The Entry Unit's requests -/

theorem onEntryRec_list (d : DomId) (f : Fpn) (g : EntryRec → EntryRec) (s : State) : onEntryRec d f g s =
    { s with entry := { s.entry with
      list := s.entry.list.map fun e => if e.dom = d ∧ e.fpn = f then g e else e } } := by
  simp [onEntryRec, State.onEntry]

theorem dropNewEntry_eq (c : CompOp) (s : State) : dropNewEntry c s = { s with entry := { s.entry with
    list := if c.combines then s.entry.list
      else s.entry.list.filter fun e => ¬(e.dom = c.dom ∧ e.fpn = c.fpn ∧ e.firstSet = 0#64) } } := by
  unfold dropNewEntry
  cases c.combines with
  | true => rfl
  | false =>
    have hfilter : (s.entry.list.filter fun e => !(e.dom == c.dom && e.fpn == c.fpn && e.firstSet == 0#64)) =
        s.entry.list.filter fun e => ¬(e.dom = c.dom ∧ e.fpn = c.fpn ∧ e.firstSet = 0#64) :=
      List.filter_congr fun e _ => by
        rw [Bool.eq_iff_iff]
        simp [or_assoc]
    simp only [Bool.false_eq_true, if_false, State.onEntry, hfilter]

/-- The Entry Unit's request for a component write enters (R105 to R107). -/
theorem enterEntry_enters {c : CompOp} {s : State} {y : Slot} (hslots : SlotLaw s)
    (hwork : s.entry.work = some (.component c)) (hy : findSlot s c.tag = some y) (hr : y.region = some .key)
    (hfirst : c.stage ≠ .firstUpdate) (hcombine : c.stage ≠ .combineUpdate) : EntryEnters c s (enterEntry s) := by
  unfold EntryEnters
  dsimp only
  have hdone (u : State) (hu : u.front.slots = s.front.slots) :
      respondDone c.tag u = u.moveSlot c.tag .key (.responding .done zeroLine) :=
    setPhase_eq_moveSlot (by rw [hu]; exact regions_of_slotLaw hslots hy hr) _
  cases hstage : c.stage with
  | reading id =>
    simp only [enterEntry, hwork, hstage]
    rfl
  | writing d =>
    intro y' hy'
    rw [hy] at hy'
    cases hy'
    refine ⟨fun hnone => ?_, fun k hk => ?_⟩
    · have hrefuse : refuse c.tag .closed .noReason (dropNewEntry c s) =
          (dropNewEntry c s).refused y.txn .key .closed .noReason :=
        refuse_of_slotLaw (s := dropNewEntry c s) (by rw [SlotLaw, dropNewEntry]; split <;> exact hslots)
          (by rw [dropNewEntry]; split <;> exact hy) hr _ _
      simp only [enterEntry, hwork, hstage, hnone, hrefuse]
      rw [dropNewEntry_eq]
      rfl
    · simp only [enterEntry, hwork, hstage, hk]
      rw [hdone _ (by rfl), onEntryRec_list]
      rfl
  | firstUpdate => exact absurd hstage hfirst
  | combineUpdate => exact absurd hstage hcombine

/-- A LIVE zero fill's next line enters, and the line after it begins to wait (R110). -/
theorem enterLiveFill_eq {s : State} {x : Option Custodian} {d : DomId} {f : Fpn} {i : PageLine} {left : List PageLine}
    {out : List Nat} {rest : List (DomId × Fpn)} {e : EntryRec} {k : LineKey}
    (hwork : s.entry.work = some (.finalising x d f (.filling (i :: left) out) rest)) (he : findEntry s d f = some e)
    (hk : lineKey s d = some k) : enterLiveFill (endWait .liveFill s) = { s with
      entry := { s.entry with work := some (.finalising x d f (.filling left (out ++ [s.back.nextId])) rest) }
      back := if left = [] then (s.back.admitted .liveFill).push true (keyBackLine s.seeds.pab e.bpn i) .fill 0#3
          (encipher k (keyBackLine s.seeds.pab e.bpn i) zeroLine) 0#64
        else ((s.back.admitted .liveFill).push true (keyBackLine s.seeds.pab e.bpn i) .fill 0#3
          (encipher k (keyBackLine s.seeds.pab e.bpn i) zeroLine) 0#64).await .liveFill } := by
  have hwork' : (endWait .liveFill s).entry.work = some (.finalising x d f (.filling (i :: left) out) rest) := hwork
  have he' : findEntry (endWait .liveFill s) d f = some e := he
  have hk' : lineKey (endWait .liveFill s) d = some k := hk
  simp only [enterLiveFill, hwork', he', hk']
  cases left with
  | nil => rfl
  | cons j left =>
    simp only [List.isEmpty_cons, Bool.false_eq_true, if_false, reduceCtorEq, beginWait_back]
    rfl

/-- Settles O8: the order in which makers enter, and what each puts into the queue. -/
theorem waitingMakerEnters : Obligations.WaitingMakerEnters := by
  unfold Obligations.WaitingMakerEnters
  refine ⟨fun s w => ⟨firstReady_iff_first, mayEnter_iff⟩, fun s s' w hlive hslots hfirst hs' => ?_⟩
  have hwait : endWait w s = s' := hs'.symm
  have hexec (hw : ∀ k, w ≠ .updateWrite k) (hf : w ≠ .fill) (hb : w ≠ .background) :
      exec .backQueueEntry s = .next (enter w s') := by
    show execBackQueueEntry s = _
    rw [execBackQueueEntry, ← hwait]
    cases w
    case updateWrite k => exact absurd rfl (hw k)
    case fill => exact absurd rfl hf
    case background => exact absurd rfl hb
    all_goals simp only [queueEntry, hfirst, hlive, if_true]
  have hlive' : live s' = true := by rw [hs']; exact hlive
  have hslots' : SlotLaw s' := by rw [hs']; exact hslots
  have hfind (tag : Tag) : findSlot s' tag = findSlot s tag := by rw [hs']; rfl
  refine ⟨?_, ?_, ?_, ?_, ?_, ?_⟩
  · rintro tag x l r rfl hx hphase hr
    have hx' := (hfind tag).trans hx
    rw [hexec (by nofun) (by nofun) (by nofun)]
    show Host.Outcome.next (enterFront tag s') = _
    rw [enterFront_read hx' hphase hr (regions_of_slotLaw hslots' hx' hr), hs']
    rfl
  · rintro tag x l d r rfl hx hphase hr
    have hx' := (hfind tag).trans hx
    have hkey : lineKey s' x.txn.dom = lineKey s x.txn.dom := by rw [hs']; rfl
    rw [hexec (by nofun) (by nofun) (by nofun)]
    refine ⟨fun hserved => ⟨_, rfl, ?_⟩, fun hr' hlost => ?_⟩
    · exact enterFront_write hlive' hx' hphase hr (regions_of_slotLaw hslots' hx' hr)
        (hserved.imp_right fun h => h.imp_right fun h => ⟨h.1, h.2.1⟩)
    · subst hr'
      have hnone : (if x.keyLost = true then none else lineKey s' x.txn.dom) = none := by
        rw [hkey]
        rcases hlost with h | h
        · rw [if_pos h]
        · rw [h, ite_self]
      show Host.Outcome.next (enterFront tag s') = _
      simp only [enterFront, hx', hphase, hr, hnone]
      rw [refuse_of_slotLaw hslots' hx' hr]
  · rintro d f rfl
    rw [hexec (by nofun) (by nofun) (by nofun), hs']
    show Host.Outcome.next (enterWalk d f _) = _
    simp [enterWalk, enqueueRead, enqueue, State.onXlat, State.onBack, BackCtl.push, BackCtl.admitted]
  · rintro k rfl
    rw [hexec (by nofun) (by nofun) (by nofun), hs']
    show Host.Outcome.next (enterUpdateRead k _) = _
    simp [enterUpdateRead, onUpdate, enqueueRead, enqueue, State.onMaps, State.onBack, BackCtl.push, BackCtl.admitted]
  · rintro c y rfl hwork hy hr hfirst' hcombine
    refine ⟨_, hexec (by nofun) (by nofun) (by nofun), ?_⟩
    exact enterEntry_enters hslots' (by rw [hs']; exact hwork) ((hfind c.tag).trans hy) hr hfirst' hcombine
  · rintro x d f i left out rest e k l rfl hwork he hk rfl
    refine ⟨_, rfl, ?_⟩
    rw [hexec (by nofun) (by nofun) (by nofun), hs']
    exact congrArg Host.Outcome.next (enterLiveFill_eq hwork he hk)

end Sys2Proof.Machine

/-! PROOFS. Run pulses, what they end, and the custodian windows (R27, R85, R94, R97 to R99, R102). -/

namespace Sys2Proof.Machine

/-! ## One row of each kind -/

theorem live_of_ends {s u : State} (h : Ends s u) : live u = live s := by rw [live, live, h.cab]

/-- The lease of a domain that ended at the last run pulse, if it did, has been taken. -/
def LeaseTaken (s : State) (e : Fin 64) : Prop := s.doms[e].state = .opened → s.doms[e].ending = false

/-- The window that ended at the last run pulse, if it did, has been taken. -/
def WindowTaken (s : State) (x : Custodian) : Prop := (s.entry.window x).state = .opened → (s.entry.window x).ending = false

/-- What the end of a lease makes of the domain records (R85). -/
theorem expireLease_doms (d : DomId) (s : State) : (expireLease d s).doms =
    if live s = true ∧ s.doms[domIx d].ending = true ∧ s.doms[domIx d].state = .opened then
      match s.doms[domIx d].staged with
      | some n => (onDom d (fun x => { x with lease := n, staged := none, ending := false }) s).doms
      | none => (onDom d DomRec.endRun s).doms
    else s.doms := by
  have hraise (f : Flag) (u : State) : (raise f u).doms = u.doms := by
    unfold raise
    split <;> rfl
  unfold expireLease
  dsimp only
  split
  · next hc =>
    cases s.doms[domIx d].staged with
    | some n => exact hraise _ _
    | none => exact (hraise _ _).trans (endRun_eq hc.1 d).2.1
  · rfl

theorem expireLease_other {d : DomId} {e : Fin 64} (h : e ≠ domIx d) (s : State) :
    (expireLease d s).doms[e] = s.doms[e] := by
  have hdoms := expireLease_doms d s
  split at hdoms
  · split at hdoms
    · exact (congrArg (·[e]) hdoms).trans (onDom_doms_of_ne h _ _)
    · exact (congrArg (·[e]) hdoms).trans (onDom_doms_of_ne h _ _)
  · exact congrArg (·[e]) hdoms

theorem expireLease_taken (d : DomId) {s : State} (hlive : live s = true) : LeaseTaken (expireLease d s) (domIx d) := by
  intro hopen
  have hdoms := expireLease_doms d s
  split at hdoms
  · split at hdoms
    · rw [show (expireLease d s).doms[domIx d] = _ from (congrArg (·[domIx d]) hdoms).trans (onDom_doms_self _ _ _)]
    · rw [show (expireLease d s).doms[domIx d] = _ from (congrArg (·[domIx d]) hdoms).trans (onDom_doms_self _ _ _)]
      rfl
  · next hc =>
    rw [show (expireLease d s).doms[domIx d] = _ from congrArg (·[domIx d]) hdoms] at hopen ⊢
    by_contra hend
    exact hc ⟨hlive, by simpa using hend, hopen⟩

theorem expireLease_keeps_taken (d : DomId) {e : Fin 64} {s : State} (hlive : live s = true) (h : LeaseTaken s e) :
    LeaseTaken (expireLease d s) e := by
  by_cases he : e = domIx d
  · rw [he]
    exact expireLease_taken d hlive
  · unfold LeaseTaken
    rw [expireLease_other he]
    exact h

theorem foldl_expireLease_taken (l : List DomId) {s : State} (hlive : live s = true) :
    (∀ d ∈ l, LeaseTaken (l.foldl (fun s d => expireLease d s) s) (domIx d)) ∧
      ∀ e, LeaseTaken s e → LeaseTaken (l.foldl (fun s d => expireLease d s) s) e := by
  induction l generalizing s with
  | nil => exact ⟨by simp, fun e h => h⟩
  | cons d l ih =>
    have hlive' : live (expireLease d s) = true := (live_of_ends (expireLease_ends d s)).trans hlive
    obtain ⟨hl, hkept⟩ := ih hlive'
    refine ⟨fun e he => ?_, fun e he => hkept e (expireLease_keeps_taken d hlive he)⟩
    rcases List.mem_cons.mp he with rfl | he
    · exact hkept _ (expireLease_taken e hlive)
    · exact hl e he

theorem lapse_doms (x : Custodian) (s : State) : (lapse x s).doms = s.doms := by
  unfold lapse
  split <;> rfl

theorem EntryUnit.window_request (o : EntryOp) (u : EntryUnit) (x : Custodian) : (u.request o).window x = u.window x := by
  rw [EntryUnit.request]
  split <;> rfl

theorem EntryUnit.window_onWindow (x y : Custodian) (g : Window → Window) (u : EntryUnit) :
    (u.onWindow x g).window y = if x = y then g (u.window x) else u.window y := by
  cases x <;> cases y <;> rfl

/-- The lapse of a window takes its end, and leaves the other window as it was. -/
theorem lapse_taken (x y : Custodian) {s : State} (hlive : live s = true) (h : x ≠ y → WindowTaken s y) :
    WindowTaken (lapse x s) y := by
  unfold WindowTaken at *
  unfold lapse
  split
  · rw [State.onEntry_entry, EntryUnit.window_request, EntryUnit.window_onWindow]
    split
    · nofun
    · next hne => exact h hne
  · next hc =>
    by_cases hxy : x = y
    · subst hxy
      intro hopen
      by_contra hend
      exact hc ⟨hlive, by simpa using hend, hopen⟩
    · exact h hxy

/-! ## All rows -/

/-- What the rows that take what a run pulse ended lead to. -/
def pulseEnded (s : State) : State := lapse .b (lapse .a (allDomains.foldl (fun s d => expireLease d s) s))

theorem runs_append (l m : List Instr) (s u : State) : Runs (l ++ m) s u ↔ ∃ v, Runs l s v ∧ Runs m v u := by
  induction l generalizing s with
  | nil => simp [Runs]
  | cons c l ih =>
    simp only [List.cons_append, Runs, ih]
    constructor
    · rintro ⟨t, ht, v, hv, hu⟩
      exact ⟨v, ⟨t, ht, hv⟩, hu⟩
    · rintro ⟨v, ⟨t, ht, hv⟩, hu⟩
      exact ⟨t, ht, v, hv, hu⟩

theorem runs_cons_next {c : Instr} {rest : List Instr} {s t u : State} (h : exec c s = .next t) :
    Runs (c :: rest) s u ↔ Runs rest t u := by
  simp [Runs, h]

theorem runs_leases (l : List DomId) (s u : State) :
    Runs (l.map Instr.leaseExpiry) s u ↔ u = l.foldl (fun s d => expireLease d s) s := by
  induction l generalizing s with
  | nil => exact Iff.rfl
  | cons d l ih =>
    rw [List.map_cons, runs_cons_next (t := expireLease d s) rfl, ih]
    rfl

/-- The rows that take what a run pulse ended are carried out in turn. -/
theorem runs_pulseRows (s u : State) : Runs pulseRows s u ↔ u = pulseEnded s := by
  have hrows : pulseRows = allDomains.map Instr.leaseExpiry ++ [Instr.windowLapse .a, Instr.windowLapse .b] := by
    rw [pulseRows, allDomains, List.map_map]
    rfl
  rw [hrows, runs_append]
  simp only [runs_leases, exists_eq_left]
  rw [runs_cons_next (t := lapse .a _) rfl, runs_cons_next (t := lapse .b _) rfl]
  rfl

theorem pulseEnded_ends (s : State) : Ends s (pulseEnded s) :=
  ((Ends.foldl (fun u d => expireLease_ends d u) _ s).trans (lapse_ends _ _)).trans (lapse_ends _ _)

theorem mem_allDomains (e : Fin 64) : ∃ d ∈ allDomains, domIx d = e := by
  refine ⟨BitVec.ofNat 6 e.val, List.mem_map.mpr ⟨e, List.mem_finRange e, rfl⟩, ?_⟩
  exact Fin.ext (by simp [domIx])

/-- Those rows leave no end to take. -/
theorem pulseEnded_taken (s : State) : PulseTaken (pulseEnded s) := by
  intro hlive
  rw [live_of_ends (pulseEnded_ends s)] at hlive
  obtain ⟨hleases, -⟩ := foldl_expireLease_taken allDomains hlive
  have hlive1 := (live_of_ends (Ends.foldl (fun u d => expireLease_ends d u) allDomains s)).trans hlive
  have hlive2 := (live_of_ends (lapse_ends .a _)).trans hlive1
  refine ⟨fun e => ?_, fun x => ?_⟩
  · obtain ⟨d, hd, rfl⟩ := mem_allDomains e
    have := hleases d hd
    have hdoms : (pulseEnded s).doms = (allDomains.foldl (fun s d => expireLease d s) s).doms :=
      (lapse_doms _ _).trans (lapse_doms _ _)
    rw [show (pulseEnded s).doms[domIx d] = _ from congrArg (·[domIx d]) hdoms]
    exact this
  · refine lapse_taken .b x hlive2 fun hne => lapse_taken .a x hlive1 fun hne' => ?_
    cases x
    · exact absurd rfl hne'
    · exact absurd rfl hne

theorem expireLease_of_taken {d : DomId} {s : State} (h : live s = true → LeaseTaken s (domIx d)) : expireLease d s = s := by
  unfold expireLease
  exact if_neg fun ⟨hlive, hend, hopen⟩ => Bool.false_ne_true ((h hlive hopen).symm.trans hend)

theorem lapse_of_taken {x : Custodian} {s : State} (h : live s = true → WindowTaken s x) : lapse x s = s := by
  unfold lapse
  exact if_neg fun ⟨hlive, hend, hopen⟩ => Bool.false_ne_true ((h hlive hopen).symm.trans hend)

/-- With nothing left to take, the rows leave the state as it stands. -/
theorem pulseEnded_of_taken {s : State} (h : PulseTaken s) : pulseEnded s = s := by
  have hleases : allDomains.foldl (fun s d => expireLease d s) s = s := by
    generalize allDomains = l
    induction l with
    | nil => rfl
    | cons d l ih => rw [List.foldl_cons, expireLease_of_taken fun hlive => (h hlive).1 (domIx d), ih]
  rw [pulseEnded, hleases, lapse_of_taken fun hlive => (h hlive).2 .a, lapse_of_taken fun hlive => (h hlive).2 .b]

theorem pulseTaken_of_not_open {s : State} (h : ¬(live s = true ∧ pulseOpen s = true)) : PulseTaken s := by
  intro hlive
  have hno : ¬pulseOpen s = true := fun hopen => h ⟨hlive, hopen⟩
  simp only [pulseOpen, Bool.or_eq_true, List.any_eq_true, List.mem_finRange, true_and, Bool.and_eq_true, beq_iff_eq, not_or,
    not_exists, not_and, Bool.not_eq_true] at hno
  obtain ⟨⟨hdoms, hA⟩, hB⟩ := hno
  refine ⟨hdoms, fun x => ?_⟩
  cases x
  · exact hA
  · exact hB

/-- What a command that could tell takes first is what those rows take. -/
theorem afterPulse_eq_pulseEnded (s : State) : afterPulse s = pulseEnded s := by
  unfold afterPulse
  split
  · rfl
  · next hc => exact (pulseEnded_of_taken (pulseTaken_of_not_open hc)).symm

theorem afterPulse_afterPulse (s : State) : afterPulse (afterPulse s) = afterPulse s := by
  refine afterPulse_of_taken ?_
  rw [afterPulse_eq_pulseEnded]
  exact pulseEnded_taken s

theorem exec_of_factor {c : Instr} (g : State → State) (h : ∀ s, exec c s = .next (g (afterPulse s))) (s : State) :
    exec c s = exec c (afterPulse s) := by
  rw [h, h, afterPulse_afterPulse]

/-- A command that could tell comes after all the ends: its row begins by taking them. -/
theorem exec_afterPulse {c : Instr} (hc : awaitsPulse c = true) (s : State) : exec c s = exec c (afterPulse s) := by
  cases c <;> try cases hc
  case frontTransaction t => exact exec_of_factor (presentTxn t) (fun _ => rfl) s
  case heldTransactionAccepted => exact exec_of_factor acceptHeld (fun _ => rfl) s
  case followingStart tag => exact exec_of_factor (startFollowing tag) (fun _ => rfl) s
  case responseDelivery tag => exact exec_of_factor (deliver tag) (fun _ => rfl) s
  case walkCompletion => exact exec_of_factor completeWalk (fun _ => rfl) s
  case waitingLookupRepeat => exact exec_of_factor repeatFirst (fun _ => rfl) s
  case readBurst => exact exec_of_factor finishRead (fun _ => rfl) s
  case componentWrite => exact exec_of_factor nextComponent (fun _ => rfl) s
  case finalisation => exact exec_of_factor nextFinalisation (fun _ => rfl) s
  case deferredFinalisation => exact exec_of_factor nextDeferred (fun _ => rfl) s
  case abandonment => exact exec_of_factor nextAbandonment (fun _ => rfl) s
  case registeredSwitchOn x => exact exec_of_factor (switchOn x) (fun _ => rfl) s
  case registeredSwitchOff x => exact exec_of_factor (switchOff x) (fun _ => rfl) s
  case runPulse => exact exec_of_factor pulse (fun _ => rfl) s
  case channelDetection i => exact exec_of_factor (detectChannel i) (fun _ => rfl) s
  case meshDetection m => exact exec_of_factor (detectMesh m) (fun _ => rfl) s
  case lidRegistered isOpen => exact exec_of_factor (registerLid isOpen) (fun _ => rfl) s
  case panelRegistered pressed => exact exec_of_factor (registerPanel pressed) (fun _ => rfl) s
  case zeroise f =>
    exact exec_of_factor (takeFrame f 0 fun s => reply .accepted (detect .command s)) (fun _ => rfl) s
  case status f => exact exec_of_factor (takeFrame f 0 fun s => replyData (statusData s) s) (fun _ => rfl) s
  case openRun f => exact exec_of_factor (takeFrame f 3 (ruleOpenRun f.args)) (fun _ => rfl) s
  case extendRun f => exact exec_of_factor (takeFrame f 3 (ruleExtendRun f.args)) (fun _ => rfl) s
  case closeRun f => exact exec_of_factor (takeFrame f 1 (ruleCloseRun f.args)) (fun _ => rfl) s
  case erase f => exact exec_of_factor (takeFrame f 1 (ruleErase f.args)) (fun _ => rfl) s
  case readDomain f => exact exec_of_factor (takeFrame f 1 (ruleReadDomain f.args)) (fun _ => rfl) s
  case readExpired f =>
    exact exec_of_factor (takeFrame f 0 fun s => replyData (expiredData s.ev) s) (fun _ => rfl) s
  case clearExpired f => exact exec_of_factor (takeFrame f 8 (ruleClearExpired f.args)) (fun _ => rfl) s
  case clearEvents f => exact exec_of_factor (takeFrame f 2 (ruleClearEvents f.args)) (fun _ => rfl) s
  case setEntry f => exact exec_of_factor (takeFrame f 1 (ruleSetEntry f.args)) (fun _ => rfl) s
  case abandonEntry f => exact exec_of_factor (takeFrame f 0 ruleAbandonEntry) (fun _ => rfl) s
  case readEntry f => exact exec_of_factor (takeFrame f 1 (ruleReadEntry f.args)) (fun _ => rfl) s
  case lock f => exact exec_of_factor (takeFrame f 3 (ruleLock f.args)) (fun _ => rfl) s
  case unlock f => exact exec_of_factor (takeFrame f 3 (ruleUnlock f.args)) (fun _ => rfl) s

/-- Settles O18: the rows of a pulse's ends leave nothing to take, commands that could tell take them first, and a pulse
counts what is OPEN. -/
theorem runPulseCounts : Obligations.RunPulseCounts := by
  unfold Obligations.RunPulseCounts
  refine ⟨fun s => ⟨_, (runs_pulseRows s _).mpr rfl, pulseEnded_taken s⟩, fun c s u hc hruns => ?_, fun s hlive hpulse => ?_⟩
  · rw [(runs_pulseRows s u).mp hruns, ← afterPulse_eq_pulseEnded]
    exact exec_afterPulse hc s
  · have hexec : exec .runPulse s = .next (pulse s) := by
      show execRunPulse s = _
      rw [execRunPulse, afterPulse_of_taken hpulse]
    have hpulsed : pulse s = { s with
        run := { s.run with counter := 0 }
        doms := s.doms.map DomRec.pulse
        entry := { s.entry with windowA := s.entry.windowA.pulse, windowB := s.entry.windowB.pulse } } := by
      rw [pulse, if_pos hlive]
    have hdom (d : Fin 64) : (pulse s).doms[d] = s.doms[d].pulse := by simp [hpulsed]
    have hwindow (x : Custodian) : (pulse s).entry.window x = (s.entry.window x).pulse := by rw [hpulsed]; cases x <;> rfl
    refine ⟨_, hexec, by rw [hpulsed], fun d => ?_, fun x => ?_⟩
    · rw [hdom]
      refine ⟨fun h => if_neg h, fun h hl => ?_, fun h hl => ?_⟩
      · have : 1 ≤ s.doms[d].lease.toNat := by omega
        rw [DomRec.pulse, if_pos h, if_neg (by omega)]
        exact ⟨rfl, BitVec.toNat_sub_of_le (by simpa [BitVec.le_def] using this)⟩
      · rw [DomRec.pulse, if_pos h, if_pos hl]
    · rw [hwindow]
      refine ⟨fun h => if_neg h, fun h hl => ?_, fun h hl => ?_⟩
      · have : 1 ≤ (s.entry.window x).remaining.toNat := by omega
        rw [Window.pulse, if_pos h, if_neg (by omega)]
        exact ⟨rfl, BitVec.toNat_sub_of_le (by simpa [BitVec.le_def] using this)⟩
      · rw [Window.pulse, if_pos h, if_pos hl]

/-- Settles O19: an ended lease gives way to the staged extension, or closes its domain. -/
theorem leaseEnds : Obligations.LeaseEnds := by
  unfold Obligations.LeaseEnds
  intro d s hlive hopen hend
  have hraise (f : Flag) {u : State} (hu : live u = true) : raise f u = { u with ev := { u.ev with
      flags := u.ev.flags ||| f.mark } } := by
    rw [raise, if_pos hu]
    rfl
  refine ⟨fun n hn => ⟨_, rfl, ?_⟩, fun hn => ⟨_, rfl, ?_⟩⟩
  · have hexpired : expireLease d s =
        raise .runExtended (onDom d (fun x => { x with lease := n, staged := none, ending := false }) s) := by
      simp only [expireLease, hlive, hend, hopen, and_self, if_true, hn]
    rw [hexpired, hraise _ (by exact hlive)]
    refine ⟨rfl, ?_, fun e he => ?_⟩
    · exact onDom_doms_self d (fun x => { x with lease := n, staged := none, ending := false }) s
    · exact onDom_doms_of_ne he (fun x => { x with lease := n, staged := none, ending := false }) s
  · have hexpired : expireLease d s =
        raise .leaseExpired ((endRun d s).onEv fun e => { e with expired := e.expired ||| domMark d }) := by
      simp only [expireLease, hlive, hend, hopen, and_self, if_true, hn]
    obtain ⟨hrun, hdoms, hdemapped⟩ := endRun_eq hlive d
    have hlive' : live (endRun d s) = true := by rw [hrun]; exact hlive
    rw [hexpired, hraise _ (by exact hlive')]
    refine ⟨?_, ?_, fun e he => ?_, hdemapped⟩
    · generalize endRun d s = v at hrun
      rw [hrun]
      simp only [State.onEv, domMark, BitVec.or_assoc, BitVec.or_comm Flag.leaseExpired.mark]
    · refine (congrArg (·[domIx d]) hdoms).trans ((onDom_doms_self d _ s).trans ?_)
      simp only [DomRec.endRun, hn]
    · exact (congrArg (·[e]) hdoms).trans (onDom_doms_of_ne he _ s)

/-! ## Custodian windows -/

theorem EntryUnit.register_onWindow_window (x : Custodian) (on : Bool) (u : EntryUnit) :
    (u.register x on).onWindow x (fun _ => u.window x) = u.register x on := by
  cases x <;> rfl

theorem EntryUnit.onWindow_congr {x : Custodian} {g h : Window → Window} {u : EntryUnit} (hg : g (u.window x) = h (u.window x)) :
    u.onWindow x g = u.onWindow x h := by
  cases x
  · simp only [EntryUnit.window] at hg
    simp only [EntryUnit.onWindow, hg]
  · simp only [EntryUnit.window] at hg
    simp only [EntryUnit.onWindow, hg]

theorem EntryUnit.window_register (x y : Custodian) (on : Bool) (u : EntryUnit) : (u.register x on).window y = u.window y := by
  cases x <;> cases y <;> rfl

/-- Settles O20: switch-on, switch-off and lapse, each with what it requests. -/
theorem windowEvents : Obligations.WindowEvents := by
  unfold Obligations.WindowEvents
  refine fun x s => ⟨fun hpulse hoff => ?_, fun hpulse hon => ?_, fun hlive hopen hend => ?_⟩
  · have hexec : exec (.registeredSwitchOn x) s =
        .next { s with entry := (s.entry.register x true).onWindow x (windowOn s) } := by
      show execRegisteredSwitchOn x s = _
      rw [execRegisteredSwitchOn, afterPulse_of_taken hpulse, switchOn, hoff, if_neg (by nofun)]
      rfl
    rw [hexec]
    refine ⟨fun hlive hshut hready hdom => ?_, fun hno => ?_⟩
    · rw [EntryUnit.onWindow_congr (h := fun _ => { state := .opened, remaining := s.entry.limit, ending := false })]
      rw [EntryUnit.window_register]
      exact if_pos ⟨hlive, hshut, hready, hdom⟩
    · rw [EntryUnit.onWindow_congr (h := fun _ => s.entry.window x), EntryUnit.register_onWindow_window]
      rw [EntryUnit.window_register]
      refine if_neg fun ⟨hlive, hshut, hready, hdom⟩ => ?_
      rcases hno with h | h | h | h
      · exact Bool.false_ne_true (h.symm.trans hlive)
      · exact h hshut
      · exact h hready
      · exact hdom h
  · show execRegisteredSwitchOff x s = _
    rw [execRegisteredSwitchOff, afterPulse_of_taken hpulse, switchOff, if_pos hon, State.onEntry]
    by_cases hopen : (s.entry.window x).state = .opened
    · simp only [hopen, if_true, true_and, EntryUnit.request_eq]
      by_cases hmem : EntryOp.finalise x ∈ s.entry.waiting
      · cases x <;> simp [hmem, EntryUnit.onWindow, EntryUnit.register, Window.reset]
      · cases x <;> simp [hmem, EntryUnit.onWindow, EntryUnit.register, Window.reset]
    · simp only [hopen, if_false, false_and]
      cases x <;> rfl
  · show Host.Outcome.next (lapse x s) = _
    rw [lapse, if_pos ⟨hlive, hend, hopen⟩, State.onEntry, EntryUnit.request_eq]
    cases x <;> rfl

/-! ## Clearing events, and ALERT -/

theorem toNat_append_eq {v w : Nat} (x : BitVec v) (y : BitVec w) : (x ++ y).toNat = x.toNat * 2 ^ w + y.toNat := by
  rw [BitVec.toNat_append, ← Nat.shiftLeft_add_eq_or_of_lt y.isLt, Nat.shiftLeft_eq]

/-- Four words, low word first, are their eight bytes. -/
theorem argWord_pairs (b0 b1 b2 b3 b4 b5 b6 b7 : Byte) :
    (argWord [b0, b1, b2, b3, b4, b5, b6, b7] 6 ++ argWord [b0, b1, b2, b3, b4, b5, b6, b7] 4 ++
      argWord [b0, b1, b2, b3, b4, b5, b6, b7] 2 ++ argWord [b0, b1, b2, b3, b4, b5, b6, b7] 0 : BitVec 64) =
      b7 ++ b6 ++ b5 ++ b4 ++ b3 ++ b2 ++ b1 ++ b0 := by
  have word2 (x y : BitVec 16) : (x ++ y : BitVec 32).toNat = x.toNat * 2 ^ 16 + y.toNat := toNat_append_eq x y
  have word3 (x : BitVec 32) (y : BitVec 16) : (x ++ y : BitVec 48).toNat = x.toNat * 2 ^ 16 + y.toNat := toNat_append_eq x y
  have word4 (x : BitVec 48) (y : BitVec 16) : (x ++ y : BitVec 64).toNat = x.toNat * 2 ^ 16 + y.toNat := toNat_append_eq x y
  have byte2 (x y : BitVec 8) : (x ++ y : BitVec 16).toNat = x.toNat * 2 ^ 8 + y.toNat := toNat_append_eq x y
  have byte3 (x : BitVec 16) (y : BitVec 8) : (x ++ y : BitVec 24).toNat = x.toNat * 2 ^ 8 + y.toNat := toNat_append_eq x y
  have byte4 (x : BitVec 24) (y : BitVec 8) : (x ++ y : BitVec 32).toNat = x.toNat * 2 ^ 8 + y.toNat := toNat_append_eq x y
  have byte5 (x : BitVec 32) (y : BitVec 8) : (x ++ y : BitVec 40).toNat = x.toNat * 2 ^ 8 + y.toNat := toNat_append_eq x y
  have byte6 (x : BitVec 40) (y : BitVec 8) : (x ++ y : BitVec 48).toNat = x.toNat * 2 ^ 8 + y.toNat := toNat_append_eq x y
  have byte7 (x : BitVec 48) (y : BitVec 8) : (x ++ y : BitVec 56).toNat = x.toNat * 2 ^ 8 + y.toNat := toNat_append_eq x y
  have byte8 (x : BitVec 56) (y : BitVec 8) : (x ++ y : BitVec 64).toNat = x.toNat * 2 ^ 8 + y.toNat := toNat_append_eq x y
  refine BitVec.eq_of_toNat_eq ?_
  simp only [argWord, argByte, List.getD_cons_zero, List.getD_cons_succ, Nat.reduceAdd, word2, word3, word4]
  rw [byte8, byte7, byte6, byte5, byte4, byte3, byte2, byte2, byte2, byte2]
  omega

theorem ne_zero_iff_bit {w : Nat} (x : BitVec w) : x ≠ 0#w ↔ ∃ i, i < w ∧ x.getLsbD i = true := by
  constructor
  · intro h
    by_contra hno
    push Not at hno
    exact h (BitVec.eq_of_getLsbD_eq fun i hi => by simpa using hno i hi)
  · rintro ⟨i, -, hi⟩ rfl
    simp at hi

/-- Settles O47: each clear leaves exactly the marks it does not name, and ALERT reads what is left of the flags. -/
theorem eventClears : Obligations.EventClears := by
  unfold Obligations.EventClears
  refine ⟨fun f s => ⟨rfl, fun b0 b1 hpulse hsent => ?_, fun b0 b1 b2 b3 b4 b5 b6 b7 hpulse hsent => ?_, fun hsent => ?_⟩,
    fun s u hruns => ?_, fun s hpulse => ?_⟩
  · have hargs : f.args = [b0, b1] := hsent.2.2
    refine ⟨s.ev.flags &&& ~~~((b1 ++ b0).setWidth 11), ?_, fun i hi => ?_⟩
    · show execClearEvents f s = _
      rw [execClearEvents, afterPulse_of_taken hpulse]
      refine congrArg Host.Outcome.next (takeFrame_of_reply hsent.sent ?_)
      rw [hargs]
      rfl
    · simp only [BitVec.getLsbD_and, BitVec.getLsbD_not, BitVec.getLsbD_setWidth, hi, decide_true, Bool.true_and]
  · have hargs : f.args = [b0, b1, b2, b3, b4, b5, b6, b7] := hsent.2.2
    refine ⟨s.ev.expired &&& ~~~(b7 ++ b6 ++ b5 ++ b4 ++ b3 ++ b2 ++ b1 ++ b0), ?_, fun i hi => ?_⟩
    · show execClearExpired f s = _
      rw [execClearExpired, afterPulse_of_taken hpulse]
      refine congrArg Host.Outcome.next (takeFrame_of_reply hsent.sent ?_)
      rw [hargs, ruleClearExpired]
      simp only [argWord_pairs]
      rfl
    · simp only [BitVec.getLsbD_and, BitVec.getLsbD_not, hi, decide_true, Bool.true_and]
  · show execClearRefusal f s = _
    rw [execClearRefusal]
    exact congrArg Host.Outcome.next (takeFrame_of_reply hsent.sent rfl)
  · have hu : u = afterPulse s := by rw [(runs_pulseRows s u).mp hruns, afterPulse_eq_pulseEnded]
    rw [alertOutput, alertOutput, hu, afterPulse_afterPulse, live_of_ends (afterPulse_ends s)]
  · rw [alertOutput, afterPulse_of_taken hpulse, Bool.and_eq_true, bne_iff_ne]
    refine and_congr_right fun _ => ?_
    rw [ne_zero_iff_bit]
    simp only [BitVec.getLsbD_and, Bool.and_eq_true]

end Sys2Proof.Machine

/-! PROOFS. Conversions, meshes and the seconds counter (R144 to R147, R151 to R153, R156). -/

namespace Sys2Proof.Machine

/-! ## Channels and meshes -/

section Update

variable (m : Monitor)

theorem Monitor.onChannel_self (c : Fin 8) (f : Channel → Channel) : (m.onChannel c f).channels[c] = f m.channels[c] := by
  simp [onChannel]

theorem Monitor.onChannel_of_ne {c j : Fin 8} (h : j ≠ c) (f : Channel → Channel) :
    (m.onChannel c f).channels[j] = m.channels[j] := by
  have hval : c.val ≠ j.val := fun heq => h (Fin.ext heq.symm)
  simp [onChannel, hval]

theorem Monitor.onMesh_self (i : Fin 2) (f : Mesh → Mesh) : (m.onMesh i f).meshes[i] = f m.meshes[i] := by
  simp [onMesh]

theorem Monitor.onMesh_of_ne {i j : Fin 2} (h : j ≠ i) (f : Mesh → Mesh) : (m.onMesh i f).meshes[j] = m.meshes[j] := by
  have hval : i.val ≠ j.val := fun heq => h (Fin.ext heq.symm)
  simp [onMesh, hval]

theorem Monitor.onMesh_id (i : Fin 2) {f : Mesh → Mesh} (h : f m.meshes[i] = m.meshes[i]) : m.onMesh i f = m := by
  unfold onMesh
  rw [h]
  simp

end Update

/-! ## Meshes -/

section Mesh

variable {x : Mesh}

theorem Mesh.crossing_of_disabled (h : x.enable = false) : x.crossing = x := by simp [crossing, h]

theorem Mesh.crossing_of_unreferenced (hon : x.enable = true) (h : x.referenced = false) :
    x.crossing = { x with interval := 0, referenced := true } := by simp [crossing, judge, hon, h]

theorem Mesh.crossing_of_good (hon : x.enable = true) (href : x.referenced = true) (hlow : x.period ≤ x.interval + x.tol)
    (hhigh : x.interval ≤ x.period + x.tol) : x.crossing = { x with interval := 0, count := 0 } := by
  simp [crossing, judge, good, hon, href, hlow, hhigh]

theorem Mesh.crossing_of_bad (hon : x.enable = true) (href : x.referenced = true)
    (hbad : x.interval + x.tol < x.period ∨ x.period + x.tol < x.interval) : x.crossing = { x with
      interval := 0, count := min (x.count + 1) x.depth, detected := x.detected || decide (x.count + 1 = x.depth) } := by
  have hgood : x.good = false := by
    simp only [good, decide_eq_false_iff_not]
    omega
  simp [crossing, judge, fault, hon, href, hgood]

theorem Mesh.miss_of_disabled (h : x.enable = false) : x.miss = x := by simp [miss, h]

theorem Mesh.miss_of_enabled (hon : x.enable = true) : x.miss = { x with
    interval := 0, referenced := false, count := min (x.count + 1) x.depth
    detected := x.detected || decide (x.count + 1 = x.depth) } := by simp [miss, fault, hon]

theorem Mesh.drive_of_enabled (hon : x.enable = true) (hlt : x.phase < x.period) :
    x.drive = { x with phase := (x.phase + 1) % x.period } := by
  have hnext : (if x.phase + 1 < x.period then x.phase + 1 else 0) = (x.phase + 1) % x.period := by
    split
    · next h => rw [Nat.mod_eq_of_lt h]
    · next h =>
      have : x.phase + 1 = x.period := by omega
      rw [this, Nat.mod_self]
  simp [drive, hon, hnext]

theorem Mesh.drive_of_disabled (h : x.enable = false) : x.drive = { x with phase := 0 } := by simp [drive, h]

end Mesh

theorem countSecond_seconds (s : State) :
    (countSecond s).mon.seconds.toNat = min 4294967295 (s.mon.seconds.toNat + 1) := by
  have hlt : s.mon.seconds.toNat < 4294967296 := s.mon.seconds.isLt
  simp only [countSecond, State.onMon]
  split
  · next h => rw [h]; rfl
  · next h =>
    have : s.mon.seconds.toNat ≠ 4294967295 := fun h' => h (BitVec.eq_of_toNat_eq h')
    rw [BitVec.toNat_add]
    simp
    omega

/-- Settles O40: a crossing, a miss, the drive phase, a second, and the two outputs. -/
theorem meshesAndSeconds : Obligations.MeshesAndSeconds := by
  unfold Obligations.MeshesAndSeconds
  refine ⟨?_, fun m heven hphase => ?_⟩
  · rintro i s m hm
    have hself (f : Mesh → Mesh) : (s.onMon (.onMesh i f)).mon.meshes[i] = f m := by
      rw [← hm]
      exact s.mon.onMesh_self i f
    have hsame {f : Mesh → Mesh} (h : f m = m) : s.onMon (.onMesh i f) = s := by
      rw [State.onMon, s.mon.onMesh_id i (by rw [hm, h])]
    refine ⟨⟨crossMesh i s, rfl, rfl, fun j hj => s.mon.onMesh_of_ne hj _, fun hoff => ?_, fun hon hfree => ?_,
        fun hon href hlow hhigh => ?_, fun hon href hbad => ?_⟩,
      ⟨missMesh i s, rfl, rfl, fun j hj => s.mon.onMesh_of_ne hj _, fun hoff => ?_, fun hon => ?_⟩,
      ⟨driveMesh i s, rfl, rfl, fun j hj => s.mon.onMesh_of_ne hj _, fun hon hlt => ?_, fun hoff => ?_⟩,
      ⟨countSecond s, rfl, rfl, countSecond_seconds s⟩⟩
    · exact hsame (Mesh.crossing_of_disabled hoff)
    · exact (hself _).trans (Mesh.crossing_of_unreferenced hon hfree)
    · exact (hself _).trans (Mesh.crossing_of_good hon href hlow hhigh)
    · exact (hself _).trans (Mesh.crossing_of_bad hon href hbad)
    · exact hsame (Mesh.miss_of_disabled hoff)
    · exact (hself _).trans (Mesh.miss_of_enabled hon)
    · exact (hself _).trans (Mesh.drive_of_enabled hon hlt)
    · exact (hself _).trans (Mesh.drive_of_disabled hoff)
  · simp only [Mesh.outputs, Bool.and_eq_true, decide_eq_true_eq]
    refine ⟨and_congr_right fun _ => and_congr_right fun _ => ?_, and_congr_right fun _ => and_congr_right fun _ => ?_, ?_⟩
    · omega
    · omega
    · rintro ⟨⟨-, -, hlow⟩, -, hhigh, -⟩
      omega

/-! ## Conversions -/

/-- How many channels a sweep passes over before it reaches one (R145). -/
def sweepDistance (last : Option (Fin 8)) (c : Fin 8) : Nat :=
  match last with
  | none => c.val
  | some l => (c.val + 7 - l.val) % 8

theorem sweepOrder_length (last : Option (Fin 8)) : (sweepOrder last).length = 8 := by
  cases last <;> simp [sweepOrder]

/-- A channel stands in the order of a sweep where its distance says. -/
theorem sweepOrder_getElem? (last : Option (Fin 8)) (c : Fin 8) : (sweepOrder last)[sweepDistance last c]? = some c := by
  cases last with
  | none => simp [sweepOrder, sweepDistance]
  | some l => revert l c; decide

theorem sweepDistance_getElem (last : Option (Fin 8)) (n : Nat) (h : n < (sweepOrder last).length) :
    sweepDistance last (sweepOrder last)[n] = n := by
  have h8 : n < 8 := by rwa [sweepOrder_length] at h
  cases last with
  | none => simp [sweepOrder, sweepDistance]
  | some l =>
    have hval : ((8 : Nat) ≠ 0) ∧ (1 : Fin 8).val = 1 := ⟨by decide, rfl⟩
    simp only [sweepOrder, sweepDistance, List.getElem_map, List.getElem_finRange, Fin.val_add, Fin.cast_mk, hval.2]
    omega

/-- A sweep takes the enabled channel that it reaches first. -/
theorem sweep_next {m : Monitor} (hmode : m.mode = .sweep) (hon : ∃ c : Fin 8, m.channels[c].enable = true) :
    ∃ c, m.nextChannel = some c ∧ m.channels[c].enable = true ∧
      ∀ j : Fin 8, m.channels[j].enable = true → sweepDistance m.lastConv c ≤ sweepDistance m.lastConv j := by
  have hmem (c : Fin 8) : c ∈ sweepOrder m.lastConv := List.mem_of_getElem? (sweepOrder_getElem? _ c)
  obtain ⟨e, he⟩ := hon
  obtain ⟨c, hc⟩ : ∃ c, (sweepOrder m.lastConv).find? (fun c => m.channels[c].enable) = some c :=
    Option.isSome_iff_exists.mp (List.find?_isSome.mpr ⟨e, hmem e, he⟩)
  obtain ⟨hon, n, hn, rfl, hfirst⟩ := List.find?_eq_some_iff_getElem.mp hc
  refine ⟨_, by simp only [Monitor.nextChannel, hmode]; exact hc, hon, fun j hj => ?_⟩
  rw [sweepDistance_getElem]
  by_contra hlt
  have hj' := hfirst _ (Nat.lt_of_not_le hlt)
  have hget := List.getElem_of_getElem? (sweepOrder_getElem? m.lastConv j)
  obtain ⟨_, hget⟩ := hget
  rw [hget, hj] at hj'
  cases hj'

theorem historyAfter_eq {h : List (Fin 8 × Byte)} (hlen : h.length ≤ 4) (r : Fin 8 × Byte) :
    historyAfter h r = (if h.length = 4 then h.tail else h) ++ [r] := by
  unfold historyAfter
  have hlim : Limit.history = 4 := rfl
  rw [hlim]
  split
  · next h4 =>
    rw [h4, List.drop_append_of_le_length (by omega)]
    simp
  · have : h.length + 1 - 4 = 0 := by omega
    rw [this, List.drop_zero]

theorem conversionCode_toNat (nanovolts : Int) :
    (conversionCode nanovolts).toNat = min 255 ((max nanovolts 0 * 256 / 2500000000).toNat) := by
  have hmax : max nanovolts 0 = (nanovolts.toNat : Int) := by omega
  rw [hmax, conversionCode, BitVec.toNat_ofNat]
  omega

/-- The judgement of a result, case by case (R147). -/
theorem judgement (power : Power) (c : Fin 8) (x : Channel) (code : Byte) : ∃ (count : Nat) (detected : Option Bool),
    (if judged power c x then ({ x with last := some code } : Channel).judge code else { x with last := some code }) =
      { x with last := some code, count := count, detected := detected } ∧
    (x.enable = false ∨ c = 0 ∧ power = .battery → count = x.count ∧ detected = x.detected) ∧
    (x.enable = true → c ≠ 0 ∨ power = .mains →
      (x.low ≤ code ∧ code ≤ x.high → count = 0 ∧ detected = x.detected) ∧
      (code < x.low ∨ x.high < code → count = min (x.count + 1) x.depth ∧
        detected = if x.count + 1 = x.depth then some (decide (x.high < code)) else x.detected)) := by
  have hjudged : judged power c x = true ↔ x.enable = true ∧ (c ≠ 0 ∨ power = .mains) := by simp [judged]
  by_cases hj : judged power c x = true
  · have hcond := hjudged.mp hj
    have hnot : ¬(x.enable = false ∨ c = 0 ∧ power = .battery) := by
      rintro (h | ⟨hc, hp⟩)
      · exact Bool.false_ne_true (h.symm.trans hcond.1)
      · rcases hcond.2 with h | h
        · exact h hc
        · rw [hp] at h
          cases h
    by_cases hin : x.low ≤ code ∧ code ≤ x.high
    · refine ⟨0, x.detected, ?_, fun h => absurd h hnot, fun _ _ => ⟨fun _ => ⟨rfl, rfl⟩, fun hout => ?_⟩⟩
      · simp [hj, Channel.judge, Channel.inside, hin]
      · exact absurd hin (by rcases hout with h | h <;> simp [h])
    · refine ⟨min (x.count + 1) x.depth, if x.count + 1 = x.depth then some (decide (x.high < code)) else x.detected, ?_,
        fun h => absurd h hnot, fun _ _ => ⟨fun h => absurd h hin, fun _ => ⟨rfl, rfl⟩⟩⟩
      have hinside : ({ x with last := some code } : Channel).inside code = false := by
        simpa only [Channel.inside, decide_eq_false_iff_not] using hin
      rw [if_pos hj, Channel.judge, hinside]
      rfl
  · refine ⟨x.count, x.detected, by rw [if_neg hj], fun _ => ⟨rfl, rfl⟩, fun hon hc => absurd (hjudged.mpr ⟨hon, hc⟩) hj⟩

/-- Settles O36: the channel, the code, the history and the judgement. -/
theorem conversionRule : Obligations.ConversionRule := by
  unfold Obligations.ConversionRule
  refine ⟨fun m => ⟨fun c hmode => by simp [Monitor.nextChannel, hmode], fun hmode hoff => ?_, fun hmode hon => ?_⟩,
    fun nanovolts s => ⟨fun hnone => ?_, ?_⟩⟩
  · simp only [Monitor.nextChannel, hmode]
    exact List.find?_eq_none.mpr fun c _ => by rw [hoff c]; nofun
  · obtain ⟨c, hnext, hen, hmin⟩ := sweep_next hmode hon
    refine ⟨c, hnext, hen, fun j hj => ?_⟩
    have := hmin j hj
    unfold sweepDistance at this
    split
    · next hl => rw [hl] at this; exact this
    · next l hl => rw [hl] at this; exact this
  · show Host.Outcome.next (convertNext nanovolts s) = _
    simp [convertNext, State.onMon, Monitor.convert, hnone]
  · intro c x hnext hx hlen
    have hmon : (convertNext nanovolts s).mon = s.mon.result s.cab.power c (conversionCode nanovolts) := by
      simp only [convertNext, State.onMon, Monitor.convert, hnext]
    have hself : (convertNext nanovolts s).mon.channels[c] =
        if judged s.cab.power c x then ({ x with last := some (conversionCode nanovolts) } : Channel).judge
          (conversionCode nanovolts) else { x with last := some (conversionCode nanovolts) } := by
      rw [hmon, ← hx]
      exact Monitor.onChannel_self ({ s.mon with
        history := historyAfter s.mon.history (c, conversionCode nanovolts), lastConv := some c } : Monitor) c _
    obtain ⟨count, detected, hout, hkept, hjudged⟩ := judgement s.cab.power c x (conversionCode nanovolts)
    refine ⟨conversionCode nanovolts, count, detected, _, conversionCode_toNat nanovolts, rfl, ?_, hself.trans hout,
      fun j hj => ?_, hkept, hjudged⟩
    · rw [← historyAfter_eq hlen, hmon]
      simp only [convertNext, State.onMon, Monitor.convert, hnext]
      rfl
    · rw [hmon]
      exact Monitor.onChannel_of_ne ({ s.mon with
        history := historyAfter s.mon.history (c, conversionCode nanovolts), lastConv := some c } : Monitor) hj _

end Sys2Proof.Machine

/-! PROOFS. The frames of the supervisor link (R192 to R195), and the key entry commands (R95, R113). -/

namespace Sys2Proof.Machine

/-! ## Frames -/

theorem addressed_iff {a : BitVec 7} {s : State} : addressed a s = true ↔ live s = true ∧ a = linkAddress s := by
  simp [addressed]

theorem takeFrame_of_unaddressed {f : Frame} {n : Nat} {rule : State → Reply} {s : State}
    (h : live s = false ∨ f.addr ≠ linkAddress s) :
    takeFrame f n rule s = { s with link := { s.link with acked := false } } := by
  have hno : ¬addressed f.addr s = true := by
    rw [addressed_iff]
    rintro ⟨hlive, haddr⟩
    rcases h with h | h
    · exact Bool.false_ne_true (h.symm.trans hlive)
    · exact h haddr
  rw [takeFrame, if_neg hno]
  rfl

theorem takeFrame_of_length {f : Frame} {n : Nat} {rule : State → Reply} {s : State} (hlive : live s = true)
    (haddr : f.addr = linkAddress s) (hlen : f.args.length ≠ n) : takeFrame f n rule s = s.answer .length [] := by
  rw [takeFrame, if_pos (addressed_iff.mpr ⟨hlive, haddr⟩), if_neg hlen]
  rfl

/-- A CONFIGURE row that names its item, or none of the ten, takes its frame. -/
theorem configure_takes {f : Frame} {item top : Nat} {taken : State → Bool} {rule : Nat → State → Reply} {s : State}
    (h : itemMatches item f = true) : ∃ rule', configure f item top taken rule s = takeFrame f 8 rule' s := by
  refine ⟨_, if_neg ?_⟩
  rintro ⟨hlen, hne, hlow, hhigh⟩
  simp only [itemMatches, hlen, bne_self_eq_false, Bool.false_or, Bool.or_eq_true, beq_iff_eq, decide_eq_true_eq] at h
  omega

/-- Each row of the table takes its frame with the argument count of its code, and judges it by a rule of its own. -/
theorem exec_takes {c : Instr} {f : Frame} {n : Nat} {s : State} (hwf : WellFormed c = true)
    (hpulse : awaitsPulse c = true → PulseTaken s) (hrow : linkRow c = some (f, n)) :
    ∃ rule, exec c s = .next (takeFrame f n rule s) := by
  have after {rule : State → Reply} (htaken : PulseTaken s)
      (h : exec c s = .next (takeFrame f n rule (afterPulse s))) : ∃ rule, exec c s = .next (takeFrame f n rule s) :=
    ⟨rule, by rw [h, afterPulse_of_taken htaken]⟩
  have item {i top : Nat} {taken : State → Bool} {rule : Nat → State → Reply} (hn : n = 8) (hi : itemMatches i f = true)
      (h : exec c s = .next (configure f i top taken rule s)) : ∃ rule, exec c s = .next (takeFrame f n rule s) := by
    obtain ⟨rule', hrule⟩ := configure_takes (s := s) (top := top) (taken := taken) (rule := rule) hi
    exact ⟨rule', by rw [h, hrule, hn]⟩
  cases c <;> cases hrow
  case status => exact after (hpulse rfl) rfl
  case commission => exact ⟨_, rfl⟩
  case recommission => exact ⟨_, rfl⟩
  case resume => exact ⟨_, rfl⟩
  case clearMap => exact ⟨_, rfl⟩
  case zeroise => exact after (hpulse rfl) rfl
  case enrol => exact ⟨_, rfl⟩
  case erase => exact after (hpulse rfl) rfl
  case openRun => exact after (hpulse rfl) rfl
  case extendRun => exact after (hpulse rfl) rfl
  case closeRun => exact after (hpulse rfl) rfl
  case readDomain => exact after (hpulse rfl) rfl
  case readExpired => exact after (hpulse rfl) rfl
  case clearExpired => exact after (hpulse rfl) rfl
  case setEntry => exact after (hpulse rfl) rfl
  case abandonEntry => exact after (hpulse rfl) rfl
  case readEntry => exact after (hpulse rfl) rfl
  case lock => exact after (hpulse rfl) rfl
  case unlock => exact after (hpulse rfl) rfl
  case demapPage => exact ⟨_, rfl⟩
  case demapDomain => exact ⟨_, rfl⟩
  case demapAll => exact ⟨_, rfl⟩
  case readRefusal => exact ⟨_, rfl⟩
  case clearRefusal => exact ⟨_, rfl⟩
  case readTamper => exact ⟨_, rfl⟩
  case ackTamper => exact ⟨_, rfl⟩
  case readResults => exact ⟨_, rfl⟩
  case clearEvents => exact after (hpulse rfl) rfl
  case configurePab => exact item rfl hwf rfl
  case configureBackTiming => exact item rfl hwf rfl
  case configurePagePolicy => exact item rfl hwf rfl
  case configureRunCompare => exact item rfl hwf rfl
  case configureEntryLimit => exact item rfl hwf rfl
  case configureChannelSettings => exact item rfl hwf rfl
  case configureMeshSettings => exact item rfl hwf rfl
  case configureConverterMode => exact item rfl hwf rfl
  case configureScrubSetting => exact item rfl hwf rfl
  case configureEventEnables => exact item rfl hwf rfl

/-! ## Command codes -/

theorem commandOf_of_not_mem {code : Byte} (h : code ∉ commandCodes) (f : Frame) : commandOf code f = .unknown code f := by
  have hnone : commandTable.find? (fun e => e.1 == code) = none := by
    refine List.find?_eq_none.mpr fun e he => ?_
    simp only [beq_iff_eq]
    rintro rfl
    exact h (List.mem_map_of_mem he)
  rw [commandOf, hnone]

theorem commandOf_of_mem {e : Byte × (Frame → Instr)} (he : e ∈ commandTable) (f : Frame) : commandOf e.1 f = e.2 f := by
  have hnodup : (commandTable.map fun e => e.1).Nodup := by decide
  obtain ⟨e', he'⟩ : ∃ e', commandTable.find? (fun x => x.1 == e.1) = some e' :=
    Option.isSome_iff_exists.mp (List.find?_isSome.mpr ⟨e, he, by simp⟩)
  have hkey : e'.1 = e.1 := by simpa using List.find?_some he'
  rw [commandOf, he', List.inj_on_of_nodup_map hnodup (List.mem_of_find?_eq_some he') he hkey]

/-- A code picks the command that stands by it in the table, and UNKNOWN where it stands by none. -/
theorem commandOf_iff {code : Byte} {f : Frame} {c : Instr} : commandOf code f = c ↔
    (code, c) ∈ (commandTable.map fun e => (e.1, e.2 f)) ∨ (c = .unknown code f ∧ code ∉ commandCodes) := by
  simp only [List.mem_map, Prod.mk.injEq]
  constructor
  · rintro rfl
    by_cases hmem : code ∈ commandCodes
    · obtain ⟨e, he, rfl⟩ := List.mem_map.mp hmem
      exact .inl ⟨e, he, rfl, (commandOf_of_mem he f).symm⟩
    · exact .inr ⟨commandOf_of_not_mem hmem f, hmem⟩
  · rintro (⟨e, he, rfl, rfl⟩ | ⟨rfl, hmem⟩)
    · exact commandOf_of_mem he f
    · exact commandOf_of_not_mem hmem f

theorem not_mem_commandCodes_iff {code : Byte} : code ∉ commandCodes ↔
    ∀ n ∈ [0x01, 0x02, 0x10, 0x11, 0x12, 0x13, 0x14, 0x20, 0x21, 0x22, 0x23, 0x24, 0x25, 0x26, 0x27, 0x30, 0x31, 0x32, 0x40,
      0x41, 0x42, 0x43, 0x44, 0x50, 0x51, 0x52, 0x53, 0x54, 0x55], code.toNat ≠ n := by
  have hcodes : [0x01, 0x02, 0x10, 0x11, 0x12, 0x13, 0x14, 0x20, 0x21, 0x22, 0x23, 0x24, 0x25, 0x26, 0x27, 0x30, 0x31, 0x32,
      0x40, 0x41, 0x42, 0x43, 0x44, 0x50, 0x51, 0x52, 0x53, 0x54, 0x55] = commandCodes.map BitVec.toNat := rfl
  rw [hcodes]
  simp only [List.mem_map, forall_exists_index, and_imp, forall_apply_eq_imp_iff₂, ne_eq, BitVec.toNat_inj]
  exact ⟨fun h a ha hcode => h (hcode ▸ ha), fun h hcode => h code hcode rfl⟩

/-- Settles O44: the frame comes before the rule, and the table is read code by code. -/
theorem linkFrames : Obligations.LinkFrames := by
  unfold Obligations.LinkFrames
  refine ⟨fun c f s hwf hpulse => ⟨fun n hrow => ?_, ?_⟩, fun f code c => ?_⟩
  · obtain ⟨rule, hexec⟩ := exec_takes hwf hpulse hrow
    rw [hexec]
    exact ⟨fun h => by rw [takeFrame_of_unaddressed h], fun hlive haddr hlen => by rw [takeFrame_of_length hlive haddr hlen]⟩
  · rintro code rfl
    have hcode : commandCodes.contains code = false := by simpa [WellFormed] using hwf
    have hexec : exec (.unknown code f) s = .next (takeFrame f f.args.length (reply .unknown) s) := by
      show execUnknown code f s = _
      rw [execUnknown, takeUnknown, hcode]
      rfl
    rw [hexec]
    exact ⟨fun h => by rw [takeFrame_of_unaddressed h],
      fun hlive haddr => by rw [takeFrame_of_reply ⟨hlive, haddr, rfl⟩ rfl]⟩
  · show some (commandOf code f) = some c ↔ _
    rw [Option.some.injEq, commandOf_iff, not_mem_commandCodes_iff]
    have htable : (code, c) ∈ (commandTable.map fun e => (e.1, e.2 f)) ↔
        (code, c) ∈ (0x01#8, Instr.status f) :: (0x02#8, configureRow f) :: ((commandTable.map fun e => (e.1, e.2 f)).drop 2) :=
      Iff.rfl
    have hsplit : (commandTable.map fun e => (e.1, e.2 f)).drop 2 =
        ((commandTable.map fun e => (e.1, e.2 f)).drop 2).take 9 ++
          (((commandTable.map fun e => (e.1, e.2 f)).drop 11).take 10 ++ (commandTable.map fun e => (e.1, e.2 f)).drop 21) := rfl
    rw [htable, hsplit, List.mem_cons, List.mem_cons, List.mem_append, List.mem_append]
    constructor
    · rintro ((h | h | h | h | h) | h)
      · exact .inl (h ▸ List.mem_cons_self)
      · exact .inr (.inr (.inr (.inl (Prod.mk.inj h))))
      · exact .inl (List.mem_cons_of_mem _ h)
      · exact .inr (.inl h)
      · exact .inr (.inr (.inl h))
      · exact .inr (.inr (.inr (.inr h)))
    · rintro (h | h | h | h | h)
      · exact .inl ((List.mem_cons.mp h).imp_right fun h => .inr (.inl h))
      · exact .inl (.inr (.inr (.inr (.inl h))))
      · exact .inl (.inr (.inr (.inr (.inr h))))
      · exact .inl (.inr (.inl (Prod.ext h.1 h.2)))
      · exact .inr h

/-! ## Key entry commands -/

theorem argEntryDomain_of_range {b : Byte} (hlow : 64 ≤ b.toNat) (hhigh : b.toNat ≤ 254) : argEntryDomain b = none := by
  have hne : b ≠ 255#8 := by rintro rfl; revert hhigh; decide
  rw [argEntryDomain, if_neg hne, argDomain_of_lt (by omega)]
  rfl

theorem argEntryDomain_of_names {b : Byte} {v : Option DomId}
    (h : v = none ∧ b = 255#8 ∨ ∃ d, v = some d ∧ b.toNat = d.toNat) : argEntryDomain b = some v := by
  rcases h with ⟨rfl, rfl⟩ | ⟨d, rfl, hd⟩
  · rfl
  · have hne : b ≠ 255#8 := by
      rintro rfl
      have : d.toNat < 64 := d.isLt
      rw [← hd] at this
      revert this
      decide
    rw [argEntryDomain, if_neg hne, argDomain_of_toNat_eq hd]
    rfl

theorem entryDomainAllowed_iff {s : State} {v : Option DomId} : entryDomainAllowed s v = true ↔
    ∀ d, v = some d → domState s d = .closed ∨ domState s d = .opened := by
  cases v <;> simp [entryDomainAllowed]

/-- Settles O52: the steps of the two judgements in their order. -/
theorem entryCommands : Obligations.EntryCommands := by
  unfold Obligations.EntryCommands
  intro f s hpulse
  refine ⟨fun b v hsent => ?_, fun hsent => ?_⟩
  · have hargs : f.args = [b] := hsent.2.2
    have hexec {c : AnsCode} {u : State} (h : ruleSetEntry [b] (acknowledge true s) = reply c (acknowledge true u)) :
        exec (.setEntry f) s = .next (u.answer c []) := by
      show execSetEntry f s = _
      rw [execSetEntry, afterPulse_of_taken hpulse]
      exact congrArg Host.Outcome.next (takeFrame_of_reply hsent.sent (by rw [hargs]; exact h))
    refine ⟨fun hlow hhigh => hexec ?_, fun hnames => ?_⟩
    · have hnone : argEntryDomain (argByte [b] 0) = none := argEntryDomain_of_range hlow hhigh
      simp only [ruleSetEntry, hnone]
    · have hsome : argEntryDomain (argByte [b] 0) = some v := argEntryDomain_of_names hnames
      have hrule : ruleSetEntry [b] (acknowledge true s) =
          if s.cab.cabinet ≠ .ready then reply .state (acknowledge true s)
          else if entryDomainAllowed s v = false then reply .state (acknowledge true s)
          else if v = s.entry.domain then reply .accepted (acknowledge true s)
          else if s.entry.list ≠ [] ∨ s.entry.windowA.state = .opened ∨ s.entry.windowB.state = .opened then
            reply .busy (acknowledge true s)
          else reply .accepted (acknowledge true (s.onEntry fun u => { u with domain := v })) := by
        simp only [ruleSetEntry, hsome]
        rfl
      rw [hrule] at hexec
      refine ⟨fun hcab => hexec (if_pos hcab), fun hcab hno => hexec ?_, fun hcab hyes => ?_⟩
      · rw [if_neg (not_not.mpr hcab), if_pos]
        rw [← Bool.not_eq_true, entryDomainAllowed_iff]
        obtain ⟨d, hd, hclosed, hopen⟩ := hno
        exact fun h => (h d hd).elim hclosed hopen
      · rw [if_neg (not_not.mpr hcab), if_neg (by rw [entryDomainAllowed_iff.mpr hyes]; nofun)] at hexec
        refine ⟨fun hv => hexec (if_pos hv), fun hv hbusy => hexec ?_, fun hv hlist hA hB => hexec ?_⟩
        · rw [if_neg hv, if_pos hbusy]
        · rw [if_neg hv, if_neg (by simp [hlist, hA, hB])]
          rfl
  · have hexec {c : AnsCode} {u : State} (h : ruleAbandonEntry (acknowledge true s) = reply c (acknowledge true u)) :
        exec (.abandonEntry f) s = .next (u.answer c []) := by
      show execAbandonEntry f s = _
      rw [execAbandonEntry, afterPulse_of_taken hpulse]
      exact congrArg Host.Outcome.next (takeFrame_of_reply hsent.sent h)
    refine ⟨fun hcab => hexec ?_, fun hcab => hexec ?_⟩
    · rw [ruleAbandonEntry]
      exact if_neg hcab
    · rw [ruleAbandonEntry, State.onEntry, EntryUnit.request_eq]
      exact if_pos hcab

end Sys2Proof.Machine

/-! PROOFS. ERASE and LOCK (R46, R55, R67, R68, R82, R83). -/

namespace Sys2Proof.Machine

/-! ## Room given on -/

/-- Giving room on touches the Update List, the order for room and the makers that wait, and nothing else. -/
theorem grantRoom_frame (l : List MapLine) (s : State) : ∃ m b, grantRoom l s = { s with maps := m, back := b } ∧
    m.fills = s.maps.fills ∧ m.requests = s.maps.requests ∧ b.queue = s.back.queue := by
  induction l generalizing s with
  | nil => exact ⟨_, _, rfl, rfl, rfl, rfl⟩
  | cons k rest ih =>
    unfold grantRoom
    split
    · exact ih s
    · split
      · obtain ⟨m, b, heq, hfills, hrequests, hqueue⟩ :=
          ih (beginWait (.updateWrite k) (onUpdate k (fun v => { v with state := .writing true }) s))
        refine ⟨m, b, ?_, ?_, ?_, ?_⟩
        · rw [heq, beginWait_back]
          rfl
        · rw [hfills, beginWait_back]
          rfl
        · rw [hrequests, beginWait_back]
          rfl
        · rw [hqueue, beginWait_back]
          rfl
      · exact ⟨_, _, rfl, rfl, rfl, rfl⟩

theorem keepFills_frame (keep : Fill → Bool) (s : State) : ∃ m b, keepFills keep s = { s with maps := m, back := b } ∧
    m.fills = s.maps.fills.filter keep ∧ b.queue = s.back.queue := by
  unfold keepFills
  dsimp only
  split
  · obtain ⟨m, b, heq, hfills, -, hqueue⟩ := grantRoom_frame
      (s.onMaps fun m => { m with fills := s.maps.fills.filter keep }).maps.roomOrder
      (s.onMaps fun m => { m with fills := s.maps.fills.filter keep })
    exact ⟨m, b, heq, hfills, hqueue⟩
  · obtain ⟨m, b, heq, hfills, -, hqueue⟩ := grantRoom_frame
      ((endWait .fill s).onMaps fun m => { m with fills := s.maps.fills.filter keep }).maps.roomOrder
      ((endWait .fill s).onMaps fun m => { m with fills := s.maps.fills.filter keep })
    exact ⟨m, b, heq, hfills, hqueue⟩

/-! ## ERASE -/

/-- A domain's record and seed once it is erased, its transactions in flight without their key. -/
def State.erased (d : DomId) (s : State) : State :=
  loseKeys d (onDom d DomRec.erase (s.onSeeds fun x => { x with
    domains := x.domains.set (domIx d).val none (domIx d).isLt }))

/-- ERASE, when it is accepted: the domain is erased and demapped, and its retire fills go (R82). -/
theorem eraseDomain_eq {s : State} (hlive : live s = true) (d : DomId) : ∃ m b t, eraseDomain d s = { s.erased d with
      maps := m, back := b, xlat := t
      ev := { s.ev with flags := s.ev.flags ||| LockLostMark (fun p => p.dom == d) s } } ∧
    m.fills = s.maps.fills.filter (fun f => f.dom != d) ∧ b.queue = s.back.queue ∧ t = s.xlat.demap fun p => p.dom == d := by
  have hdemap : domainDemap d (s.erased d) = (s.erased d).demapped fun p => p.dom == d := demapBy_eq_demapped hlive
  obtain ⟨m, b, heq, hfills, hqueue⟩ := keepFills_frame (fun f => f.dom != d) (domainDemap d (s.erased d))
  refine ⟨m, b, _, heq.trans ?_, ?_, ?_, rfl⟩
  · rw [hdemap]
    rfl
  · rw [hfills, hdemap]
    rfl
  · rw [hqueue, hdemap]
    rfl

theorem erased_doms_self (d : DomId) (s : State) : (s.erased d).doms[domIx d] = s.doms[domIx d].erase :=
  onDom_doms_self d DomRec.erase _

theorem erased_doms_of_ne {d : DomId} {i : Fin 64} (h : i ≠ domIx d) (s : State) : (s.erased d).doms[i] = s.doms[i] :=
  onDom_doms_of_ne h DomRec.erase _

theorem erased_seeds (d : DomId) (i : Fin 64) (s : State) :
    (s.erased d).seeds.domains[i] = if i = domIx d then none else s.seeds.domains[i] := by
  show (s.seeds.domains.set (domIx d).val none (domIx d).isLt)[i] = _
  by_cases h : i = domIx d
  · simp [h]
  · have hval : (domIx d).val ≠ i.val := fun heq => h (Fin.ext heq.symm)
    simp [h, hval]

/-- An erased domain's slots keep their transactions and their phases. -/
theorem erased_findSlot (d : DomId) (tag : Tag) (s : State) :
    (findSlot (s.erased d) tag).map (fun x => (x.txn, x.phase)) = (findSlot s tag).map fun x => (x.txn, x.phase) := by
  have hkept (x : Slot) : (x.erased d).txn = x.txn ∧ (x.erased d).phase = x.phase := by
    unfold Slot.erased
    split <;> exact ⟨rfl, rfl⟩
  show ((s.front.slots.map (Slot.erased d)).find? _).map _ = _
  rw [List.find?_map, Option.map_map]
  have hp : ((fun x : Slot => x.txn.tag == tag) ∘ Slot.erased d) = fun x => x.txn.tag == tag := by
    funext x
    simp only [Function.comp_apply, (hkept x).1]
  have hg : ((fun x : Slot => (x.txn, x.phase)) ∘ Slot.erased d) = fun x => (x.txn, x.phase) := by
    funext x
    simp only [Function.comp_apply, (hkept x).1, (hkept x).2]
  rw [hp, hg]
  rfl

/-- Settles O51: ERASE is BUSY for a domain in the Entry List, else it takes the domain's seed, pages and fills. -/
theorem eraseEndsDomain : Obligations.EraseEndsDomain := by
  unfold Obligations.EraseEndsDomain
  intro f s d b hpulse hsent hb hd hcab hstate
  have hargs : f.args = [b] := hsent.2.2
  have hissuer : argIssuer [b] = some d := argIssuer_of_toNat_eq hb hd
  have hdom : domState s d = s.doms[domIx d].state := domState_of_ne_zero hd s
  have hexec {c : AnsCode} {u : State} (h : ruleErase [b] (acknowledge true s) = reply c (acknowledge true u)) :
      exec (.erase f) s = .next (u.answer c []) := by
    show execErase f s = _
    rw [execErase, afterPulse_of_taken hpulse]
    exact congrArg Host.Outcome.next (takeFrame_of_reply hsent.sent (by rw [hargs]; exact h))
  have hrule : ruleErase [b] (acknowledge true s) =
      if s.entry.list.any (fun e => e.dom == d) then reply .busy (acknowledge true s)
      else reply .accepted (eraseDomain d (acknowledge true s)) := by
    simp only [ruleErase, hissuer]
    rw [if_neg, if_neg]
    · rfl
    · rw [show domState (acknowledge true s) d = domState s d from rfl, hdom]
      rintro ⟨hclosed, hopen⟩
      exact hstate.elim hclosed hopen
    · rw [show readyOrRestore (acknowledge true s) = readyOrRestore s from rfl, readyOrRestore_iff.mpr hcab]
      nofun
  rw [hrule] at hexec
  refine ⟨fun hin => hexec (if_pos (by simpa using hin)), fun hout => ?_⟩
  obtain ⟨m, bk, t, heq, hfills, hqueue, rfl⟩ := eraseDomain_eq (s := acknowledge true s) hsent.1 d
  refine ⟨eraseDomain d (acknowledge true s), hexec ?_, ?_⟩
  · rw [if_neg (by simpa using hout), heq]
    rfl
  · rw [heq]
    have hdoms := erased_doms_self d (acknowledge true s)
    refine ⟨rfl, ?_, fun hepoch => hdoms.trans ?_, fun hepoch => hdoms.trans ?_, fun d' hd' => ⟨?_, ?_⟩,
      demapped_spec (fun p => p.dom == d) s, rfl, rfl, hfills, fun tag => ?_, rfl, rfl, rfl, hqueue, rfl, rfl, rfl⟩
    · exact (erased_seeds d (domIx d) _).trans (if_pos rfl)
    · rw [DomRec.erase, if_neg (by exact hepoch)]
      rfl
    · rw [DomRec.erase, if_pos (by exact hepoch)]
      show ({ state := .spent, epoch := s.doms[domIx d].epoch, lease := 0#16, staged := none, ending := false } : DomRec) = _
      rw [hepoch]
    · exact erased_doms_of_ne hd' _
    · exact (erased_seeds d d' _).trans (if_neg hd')
    · exact erased_findSlot d tag (acknowledge true s)

/-! ## Fixed Buffer victims -/

/-- The lowest-numbered Fixed Buffer entry of a kind: it is of the kind, and none below it is. -/
theorem Translation.lowest_eq_some {c : FixedEntry → Bool} {t : Translation} {i : Fin 16} :
    t.lowest c = some i ↔ c t.fixed[i] = true ∧ ∀ j, j < i → c t.fixed[j] = false := by
  unfold lowest
  rw [List.find?_eq_some_iff_getElem]
  simp only [List.getElem_finRange, List.length_finRange, Fin.cast_mk, Bool.not_eq_true']
  constructor
  · rintro ⟨hc, n, hn, rfl, hlow⟩
    exact ⟨hc, fun j hj => hlow j.val hj⟩
  · rintro ⟨hc, hlow⟩
    exact ⟨hc, i.val, i.isLt, rfl, fun j hj => hlow ⟨j, hj.trans i.isLt⟩ hj⟩

theorem Translation.lowest_eq_none {c : FixedEntry → Bool} {t : Translation} :
    t.lowest c = none ↔ ∀ j : Fin 16, c t.fixed[j] = false := by
  unfold lowest
  simp

theorem Translation.clearUsed_fixed (t : Translation) (j : Fin 16) : t.clearUsed.fixed[j] =
    { t.fixed[j] with used := t.fixed[j].lock && t.fixed[j].used } := by
  have : t.clearUsed.fixed[j] = if t.fixed[j].lock then t.fixed[j] else { t.fixed[j] with used := false } := by
    simp [clearUsed]
  rw [this]
  generalize t.fixed[j] = x
  obtain ⟨h, l, u⟩ := x
  cases l <;> rfl

/-- The victim that R55 chooses, and what its choice leaves of the other entries. -/
theorem Translation.victim_takes {t t' : Translation} {i : Fin 16} (h : t.victim = some (i, t')) (e : FixedEntry) :
    TakesVictim i e t (t'.onFixed i fun _ => e) ∧ t' = { t with fixed := t'.fixed } := by
  unfold victim at h
  split at h
  · next j hj =>
    cases h
    obtain ⟨hfree, hlow⟩ := lowest_eq_some.mp hj
    refine ⟨⟨onFixed_self _ _ _, .inl ⟨?_, fun k hk => ?_, fun k hk => onFixed_of_ne hk _ _⟩⟩, rfl⟩
    · simpa using hfree
    · simpa using hlow k hk
  · next hfull =>
    have hvalid : ∀ j : Fin 16, t.fixed[j].held.valid = true := fun j => by simpa using lowest_eq_none.mp hfull j
    split at h
    · next j hj =>
      cases h
      obtain ⟨hfree, hlow⟩ := lowest_eq_some.mp hj
      simp only [Bool.and_eq_true, Bool.not_eq_true'] at hfree
      refine ⟨⟨onFixed_self _ _ _, .inr ⟨hvalid, hfree.1, .inl ⟨hfree.2, fun k hk => ?_, fun k hk => onFixed_of_ne hk _ _⟩⟩⟩, rfl⟩
      have := hlow k hk
      cases hl : t.fixed[k].lock
      · rw [hl] at this
        right
        simpa using this
      · exact .inl rfl
    · next hused =>
      split at h
      · next j hj =>
        cases h
        obtain ⟨hfree, hlow⟩ := lowest_eq_some.mp hj
        simp only [clearUsed_fixed, Bool.and_eq_true, Bool.not_eq_true'] at hfree
        refine ⟨⟨onFixed_self _ _ _, .inr ⟨hvalid, hfree.1, .inr ⟨fun k => ?_, fun k hk => ?_, fun k hk => ?_⟩⟩⟩, rfl⟩
        · have := lowest_eq_none.mp hused k
          cases hl : t.fixed[k].lock
          · rw [hl] at this
            right
            simpa using this
          · exact .inl rfl
        · have := hlow k hk
          rw [clearUsed_fixed] at this
          cases hl : t.fixed[k].lock
          · rw [hl] at this
            cases this
          · rfl
        · rw [onFixed_of_ne hk, clearUsed_fixed]
      · cases h

/-- There is a victim unless all 16 entries hold locked pages (R55). -/
theorem Translation.victim_eq_none {t : Translation} : t.victim = none ↔ AllLocked t := by
  constructor
  · intro h i
    unfold victim at h
    split at h
    · cases h
    · next hfull =>
      split at h
      · cases h
      · split at h
        · cases h
        · next hlast =>
          refine ⟨by simpa using lowest_eq_none.mp hfull i, ?_⟩
          have := lowest_eq_none.mp hlast i
          rw [clearUsed_fixed] at this
          cases hl : t.fixed[i].lock
          · rw [hl] at this
            cases this
          · rfl
  · intro h
    have h1 : (t.lowest fun e => !e.held.valid) = none := lowest_eq_none.mpr fun j => by rw [(h j).1]; rfl
    have h2 : (t.lowest fun e => !e.lock && !e.used) = none := lowest_eq_none.mpr fun j => by rw [(h j).2]; rfl
    have h3 : (t.clearUsed.lowest fun e => !e.lock && !e.used) = none :=
      lowest_eq_none.mpr fun j => by rw [clearUsed_fixed, (h j).2]; rfl
    simp only [victim, h1, h2, h3]

/-- An insertion into the Fixed Buffer (R55): into the victim, unless all 16 are locked. -/
theorem Translation.insertFixed_takes {t : Translation} (p : Page) (lock : Bool) (h : ¬AllLocked t) :
    ∃ (i : Fin 16) (t' : Translation), t.insertFixed p lock = some t' ∧ t' = { t with fixed := t'.fixed } ∧
      TakesVictim i { held := { valid := true, fields := p }, lock := lock, used := true } t t' := by
  cases hv : t.victim with
  | none => exact absurd (victim_eq_none.mp hv) h
  | some r =>
    obtain ⟨i, t'⟩ := r
    obtain ⟨htakes, hrest⟩ := victim_takes hv { held := { valid := true, fields := p }, lock := lock, used := true }
    refine ⟨i, t'.onFixed i fun _ => { held := .ofPage p, lock := lock, used := true }, ?_, ?_, htakes⟩
    · simp only [insertFixed, hv]
    · rw [hrest]
      rfl

theorem Translation.insertFixed_none {t : Translation} (p : Page) (lock : Bool) (h : AllLocked t) :
    t.insertFixed p lock = none := by
  simp only [insertFixed, victim_eq_none.mpr h]

/-! ## LOCK -/

theorem allLocked_iff {t : Translation} : allLocked t = true ↔ AllLocked t := by
  unfold allLocked AllLocked
  rw [List.all_eq_true]
  simp only [Vector.mem_toList_iff, Bool.and_eq_true]
  constructor
  · exact fun h i => h _ (by simp)
  · intro h e he
    obtain ⟨i, hi, rfl⟩ := Vector.mem_iff_getElem.mp he
    exact h ⟨i, hi⟩

theorem lockHeld_iff {s : State} : lockHeld s = true ↔ ∃ v ∈ s.xlat.walks, v.lock = true := by
  simp [lockHeld]

theorem walkFor_isSome_iff {d : DomId} {f : Fpn} {t : Translation} :
    (t.walkFor d f).isSome = true ↔ ∃ v ∈ t.walks, v.dom = d ∧ v.fpn = f := by
  simp [Translation.walkFor]

/-- A page moves into the Fixed Buffer entry that R55 chooses, and its way is emptied (R67). -/
theorem Translation.moveLocked_takes {t : Translation} {d : DomId} {f : Fpn} {p : Page} (hset : t.setHit d f = some p)
    (hfree : ¬AllLocked t) : ∃ (i : Fin 16) (t' : Translation), t.moveLocked p = some t' ∧
      t' = { t with fixed := t'.fixed, sets := (t.onSet (setIndex d f) fun r => { r with
        way0 := r.way0.without (Page.isOf d f), way1 := r.way1.without (Page.isOf d f) }).sets } ∧
      TakesVictim i { held := { valid := true, fields := p }, lock := true, used := true } t t' := by
  obtain ⟨hpair, -⟩ := setHit_some hset
  obtain ⟨rfl, rfl⟩ := Prod.mk.inj hpair
  obtain ⟨i, t', hins, hrest, htakes⟩ := insertFixed_takes p true hfree
  refine ⟨i, t'.onSet (setIndex p.dom p.fpn) (SetRow.demap (Page.isOf p.dom p.fpn)), ?_, ?_, htakes⟩
  · rw [moveLocked, hins]
    rfl
  · have hrow : (SetRow.demap (Page.isOf p.dom p.fpn)) = fun r : SetRow => { r with
        way0 := r.way0.without (Page.isOf p.dom p.fpn), way1 := r.way1.without (Page.isOf p.dom p.fpn) } := by
      funext r
      simp only [SetRow.demap, Held.without_eq_demap]
    rw [hrow, hrest]
    rfl

/-- The steps of R67 from the lookup on. -/
def lockLookup (d : DomId) (f : Fpn) (s : State) : Reply :=
  match s.xlat.fixedHit d f with
  | some i =>
    if s.xlat.fixed[i].lock then reply .accepted s
    else reply .accepted (s.onXlat (.onFixed i fun e => { e with lock := true }))
  | none =>
    if allLocked s.xlat then reply .full s
    else
      match s.xlat.setHit d f with
      | some p =>
        match s.xlat.moveLocked p with
        | some t => reply .accepted (s.onXlat fun _ => t)
        | none => reply .full s
      | none => requestLock d f s

section Lookup

variable {d : DomId} {f : Fpn} {s : State}

theorem lockPair_eq (hfree : ¬lockHeld s = true) (hcab : s.cab.cabinet = .ready) (hopen : domState s d = .opened) :
    lockPair d f s = lockLookup d f s := by
  rw [lockPair, if_neg hfree, if_neg]
  · rfl
  · exact fun h => h.elim (fun h => h hcab) (fun h => h hopen)

/-- A page in the Fixed Buffer is locked in place; one that is locked stays so. -/
theorem lockLookup_fixed {i : Fin 16} (hhit : s.xlat.fixedHit d f = some i) :
    lockLookup d f s = reply .accepted (s.onXlat (.onFixed i fun e => { e with lock := true })) := by
  simp only [lockLookup, hhit]
  split
  · next hlock =>
    have hsame : s.xlat.onFixed i (fun e => { e with lock := true }) = s.xlat := by
      have : ({ s.xlat.fixed[i] with lock := true } : FixedEntry) = s.xlat.fixed[i] := by rw [← hlock]
      simp only [Translation.onFixed, this]
      simp
    rw [State.onXlat, hsame]
  · rfl

theorem lockLookup_full (hmiss : s.xlat.fixedHit d f = none) (hall : AllLocked s.xlat) :
    lockLookup d f s = reply .full s := by
  simp only [lockLookup, hmiss]
  rw [if_pos (allLocked_iff.mpr hall)]

theorem lockLookup_set {p : Page} {t : Translation} (hmiss : s.xlat.fixedHit d f = none) (hall : ¬AllLocked s.xlat)
    (hset : s.xlat.setHit d f = some p) (hmove : s.xlat.moveLocked p = some t) :
    lockLookup d f s = reply .accepted (s.onXlat fun _ => t) := by
  simp only [lockLookup, hmiss, hset, hmove]
  rw [if_neg fun h => hall (allLocked_iff.mp h)]

theorem lockLookup_none (hmiss : s.xlat.fixedHit d f = none) (hall : ¬AllLocked s.xlat)
    (hset : s.xlat.setHit d f = none) : lockLookup d f s = requestLock d f s := by
  simp only [lockLookup, hmiss, hset]
  rw [if_neg fun h => hall (allLocked_iff.mp h)]

theorem requestLock_join (h : ∃ v ∈ s.xlat.walks, v.dom = d ∧ v.fpn = f) : requestLock d f s = (none, { s with
    xlat := { s.xlat with
      walks := s.xlat.walks.map fun v => if v.dom = d ∧ v.fpn = f then { v with lock := true } else v } }) := by
  obtain ⟨w, hw⟩ := Option.isSome_iff_exists.mp (walkFor_isSome_iff.mpr h)
  simp only [requestLock, hw, joinLock, State.onXlat]
  simp

theorem walkFor_eq_none (h : ∀ v ∈ s.xlat.walks, ¬(v.dom = d ∧ v.fpn = f)) : s.xlat.walkFor d f = none := by
  rw [← Option.not_isSome_iff_eq_none, walkFor_isSome_iff]
  rintro ⟨v, hv, hpair⟩
  exact h v hv hpair

theorem requestLock_busy (h : s.xlat.walkFor d f = none) (hlen : 4 ≤ s.xlat.walks.length) :
    requestLock d f s = reply .busy s := by
  simp only [requestLock, h]
  exact if_neg (Nat.not_lt.mpr hlen)

theorem requestLock_start (h : s.xlat.walkFor d f = none) (hlen : s.xlat.walks.length < 4) :
    requestLock d f s = (none, s.walkStarted d f [] true) := by
  simp only [requestLock, h, startWalk_eq h]
  exact if_pos hlen

theorem walkStarted_acknowledge (waiters : List Tag) (lock a : Bool) :
    (acknowledge a s).walkStarted d f waiters lock = acknowledge a (s.walkStarted d f waiters lock) := by
  have hmay : mayEnter (.walk d f) (acknowledge a s) = mayEnter (.walk d f) s := mayEnter_congr _ rfl rfl
  unfold State.walkStarted
  rw [hmay]
  dsimp only
  split <;> rfl

theorem walkStarted_link (waiters : List Tag) (lock : Bool) : (s.walkStarted d f waiters lock).link = s.link := by
  unfold State.walkStarted
  dsimp only
  split <;> rfl

end Lookup

/-- Settles O53: the steps of R67 in their order, and the walk that carries the request where neither buffer holds the
page. -/
theorem lockCommand : Obligations.LockCommand := by
  unfold Obligations.LockCommand
  intro f s b w d p hpulse hsent hb hw
  have hb' : argByte f.args 0 = b := hb
  have hw' : argWord f.args 1 = w := hw.symm
  have htaken : exec (.lock f) s = .next (takeFrame f 3 (ruleLock f.args) s) := by
    show execLock f s = _
    rw [execLock, afterPulse_of_taken hpulse]
  refine ⟨fun hrange => ?_, fun hd hp => ?_⟩
  · have hnone : argPair f.args = none := argPair_of_lt (by rwa [hb', hw'])
    rw [htaken, takeFrame_of_reply hsent]
    rw [ruleLock, hnone]
  · have hpair : argPair f.args = some (d, p) := argPair_of_toNat_eq (by rw [hb', hd]) (by rw [hw', hp])
    have hexec {c : AnsCode} {u : State} (h : lockPair d p (acknowledge true s) = reply c (acknowledge true u)) :
        exec (.lock f) s = .next (u.answer c []) := by
      rw [htaken, takeFrame_of_reply hsent]
      rw [ruleLock, hpair]
      exact h
    have hwaits {u : State} (h : lockPair d p (acknowledge true s) = (none, u)) :
        exec (.lock f) s = .next (putAnswer (none, u)) := by
      obtain ⟨hlive, haddr, hlen⟩ := hsent
      rw [htaken, takeFrame, if_pos (addressed_iff.mpr ⟨hlive, haddr⟩), if_pos hlen, ruleLock, hpair]
      exact congrArg (fun r => Host.Outcome.next (putAnswer r)) h
    have hnot (hfree : ∀ v ∈ s.xlat.walks, v.lock = false) : ¬lockHeld s = true := by
      rw [lockHeld_iff]
      rintro ⟨v, hv, hlock⟩
      exact Bool.false_ne_true ((hfree v hv).symm.trans hlock)
    refine ⟨fun hheld => hexec (if_pos (lockHeld_iff.mpr hheld)), fun hfree hno => hexec ?_, fun hfree hcab hopen => ?_⟩
    · rw [lockPair, if_neg (show ¬lockHeld (acknowledge true s) = true from hnot hfree)]
      exact if_pos hno
    · have hlookup : lockPair d p (acknowledge true s) = lockLookup d p (acknowledge true s) :=
        lockPair_eq (s := acknowledge true s) (hnot hfree) hcab hopen
      rw [hlookup] at hexec hwaits
      refine ⟨fun i hhit => ?_, fun hmiss => ⟨fun hall => ?_, fun hall => ⟨fun page hset => ?_, fun hset => ?_⟩⟩⟩
      · refine ⟨s.onXlat (.onFixed i fun e => { e with lock := true }), hexec ?_, rfl, ?_, fun j hj => ?_⟩
        · exact lockLookup_fixed (s := acknowledge true s) hhit
        · exact Translation.onFixed_self i _ s.xlat
        · exact Translation.onFixed_of_ne hj _ s.xlat
      · exact hexec (lockLookup_full (s := acknowledge true s) hmiss hall)
      · obtain ⟨i, t, hmove, hrest, htakes⟩ := Translation.moveLocked_takes hset hall
        refine ⟨{ s with xlat := t }, i, hexec ?_, ?_, htakes⟩
        · exact lockLookup_set (s := acknowledge true s) hmiss hall hset hmove
        · exact congrArg (fun t => { s with xlat := t }) hrest
      · have hrequest := lockLookup_none (s := acknowledge true s) hmiss hall hset
        rw [hrequest] at hexec hwaits
        refine ⟨fun hjoin => ?_, fun hnone => ⟨fun hlen => ?_, fun hlen => ?_⟩⟩
        · rw [hwaits (requestLock_join (s := acknowledge true s) hjoin)]
          rfl
        · exact hexec (requestLock_busy (s := acknowledge true s) (walkFor_eq_none hnone) hlen)
        · rw [hwaits (requestLock_start (s := acknowledge true s) (walkFor_eq_none hnone) hlen), walkStarted_acknowledge,
            ← walkStarted_link (s := s) (d := d) (f := p) [] true]
          rfl

end Sys2Proof.Machine

/-! PROOFS. Round trips of descriptors, lines and enciphered lines (DescriptorsRoundTrip). -/

namespace Sys2Proof.Machine

/-! ## Descriptors and lines -/

theorem Desc.ofBits_toBits (d : Desc) : Desc.ofBits d.toBits = d := by
  obtain ⟨valid, cls, kernelOnly, life, cust, epoch, bpn, owner⟩ := d
  simp only [Desc.ofBits, Desc.toBits, Desc.mk.injEq]
  refine ⟨?_, ?_, ?_, ?_, ?_, ?_, ?_, ?_⟩ <;> ext i hi <;> simp <;> grind

theorem Desc.toBits_ofBits (x : BitVec 64) : (Desc.ofBits x).toBits = x := by
  simp only [Desc.ofBits, Desc.toBits]
  ext i hi
  simp
  grind

/-- Byte `j` of eight bytes put together, the lowest least significant. -/
theorem extractLsb'_bytes (b0 b1 b2 b3 b4 b5 b6 b7 : Byte) (j : Fin 8) :
    (b7 ++ b6 ++ b5 ++ b4 ++ b3 ++ b2 ++ b1 ++ b0).extractLsb' (8 * j.val) 8 =
      [b0, b1, b2, b3, b4, b5, b6, b7][j.val] := by
  ext i hi
  fin_cases j <;> simp <;> grind

theorem descsLine_lineDescs (l : Line) : descsLine (lineDescs l) = l := by
  ext j hj : 1
  obtain ⟨i, k, rfl⟩ : ∃ (i : Fin 8) (k : Fin 8), j = 8 * i.val + k.val :=
    ⟨⟨j / 8, by omega⟩, ⟨j % 8, by omega⟩, by simp only; omega⟩
  have hi : (8 * i.val + k.val) / 8 = i.val := by omega
  have hk : (8 * i.val + k.val) % 8 = k.val := by omega
  simp only [descsLine, lineDescs, Vector.getElem_ofFn, hi, hk, extractLsb'_bytes]
  fin_cases k <;> rfl

/-- A line's bytes are all the bits of its descriptors. -/
theorem descsLine_injective : Function.Injective descsLine := by
  intro v w h
  ext i hi k hk
  have hbyte : (descsLine v)[8 * i + k / 8] = (descsLine w)[8 * i + k / 8] := by rw [h]
  have hdesc : (8 * i + k / 8) / 8 = i := by omega
  have hplace : (8 * i + k / 8) % 8 = k / 8 := by omega
  simp only [descsLine, Vector.getElem_ofFn, hdesc, hplace] at hbyte
  have hbit := congrArg (fun x => x.getLsbD (k % 8)) hbyte
  simp only [BitVec.getLsbD_extractLsb', Nat.mod_lt k (by decide : 0 < 8), decide_true, Bool.true_and, Nat.div_add_mod] at hbit
  exact hbit

theorem lineDescs_descsLine (v : Vector (BitVec 64) 8) : lineDescs (descsLine v) = v :=
  descsLine_injective (descsLine_lineDescs _)

/-- Settles O16: field by field, byte by byte, and the cipher is a bijection of lines. -/
theorem descriptorsRoundTrip : Obligations.DescriptorsRoundTrip := by
  unfold Obligations.DescriptorsRoundTrip
  exact ⟨Desc.ofBits_toBits, Desc.toBits_ofBits, lineDescs_descsLine, descsLine_lineDescs,
    fun key t l => (Config.lineCipher key t).symm_apply_apply l, fun key t l => (Config.lineCipher key t).apply_symm_apply l⟩

end Sys2Proof.Machine

/-! PROOFS. What the Back Controller's operations do to its bank and rank records: a burst driven, a background line, an
automatic precharge and the end of START-UP (WriteCompletes, BackgroundLines, OwnPrecharges). -/

namespace Sys2Proof.Machine

/-! ## Bank and rank records -/

theorem bankIx_injective {r r' : Fin 2} {i i' : Fin 8} (h : bankIx r i = bankIx r' i') : (r, i) = (r', i') := by
  have hval : r.val * 8 + i.val = r'.val * 8 + i'.val := congrArg Fin.val h
  rw [Prod.mk.injEq, Fin.ext_iff, Fin.ext_iff]
  omega

namespace BackCtl

variable (b : BackCtl)

theorem onBank_bank_self (r : Fin 2) (i : Fin 8) (g : Bank → Bank) : (b.onBank r i g).bank r i = g (b.bank r i) := by
  simp [onBank, bank]

theorem onBank_bank_of_ne {r r' : Fin 2} {i i' : Fin 8} (h : (r', i') ≠ (r, i)) (g : Bank → Bank) :
    (b.onBank r i g).bank r' i' = b.bank r' i' := by
  have hne : (bankIx r i).val ≠ (bankIx r' i').val := fun heq => h (bankIx_injective (Fin.ext heq)).symm
  simp [onBank, bank, hne]

theorem onRank_ranks_self (r : Fin 2) (g : Rank → Rank) : (b.onRank r g).ranks[r] = g b.ranks[r] := by
  simp [onRank]

theorem onRank_ranks_of_ne {r r' : Fin 2} (h : r' ≠ r) (g : Rank → Rank) : (b.onRank r g).ranks[r'] = b.ranks[r'] := by
  have hne : r.val ≠ r'.val := fun heq => h (Fin.ext heq).symm
  simp [onRank, hne]

theorem precharged_bank_self (r : Fin 2) (i : Fin 8) (t : Nat) :
    (b.precharged r i t).bank r i = { b.bank r i with row := none, lastPre := some t, closing := none } :=
  b.onBank_bank_self r i _

theorem precharged_bank_of_ne {r r' : Fin 2} {i i' : Fin 8} (h : (r', i') ≠ (r, i)) (t : Nat) :
    (b.precharged r i t).bank r' i' = b.bank r' i' :=
  b.onBank_bank_of_ne h _

end BackCtl

/-! ## Bursts driven -/

/-- A completion changes the operation in progress and the count of background completions alone. -/
theorem reportWrite_frame (q : BackReq) (s : State) : ∃ w n, reportWrite q s =
    { s with entry := { s.entry with work := w }, cab := { s.cab with bg := { s.cab.bg with completed := n } } } := by
  unfold reportWrite
  split
  · split
    · exact ⟨_, _, rfl⟩
    · exact ⟨_, _, rfl⟩
  · split
    · exact ⟨_, _, rfl⟩
    · exact ⟨_, _, rfl⟩
  · exact ⟨_, _, rfl⟩

section Completion

variable {q : BackReq} {s : State}

theorem reportWrite_filling {x : Option Custodian} {d : DomId} {f : Fpn} {left : List PageLine} {out : List Nat}
    {rest : List (DomId × Fpn)} (horigin : q.origin = .fill)
    (hwork : s.entry.work = some (.finalising x d f (.filling left out) rest)) :
    reportWrite q s = setWork (some (.finalising x d f (.filling left (out.erase q.id)) rest)) s := by
  simp only [reportWrite, horigin, hwork]

theorem reportWrite_work (h : q.origin ≠ .fill ∨
    ∀ x d f left out rest, s.entry.work ≠ some (.finalising x d f (.filling left out) rest)) :
    (reportWrite q s).entry.work = s.entry.work := by
  unfold reportWrite
  split
  · next horigin =>
    split
    · next x d f left out rest hwork =>
      exact (h.elim (fun h => h horigin) fun h => h x d f left out rest hwork).elim
    · rfl
  · split <;> rfl
  · rfl

theorem reportWrite_completed : (reportWrite q s).cab.bg.completed =
    if q.origin = .background s.cab.bg.run ∧ s.cab.bg.op ≠ .idle then s.cab.bg.completed + 1 else s.cab.bg.completed := by
  unfold reportWrite
  split
  · next horigin =>
    rw [if_neg fun h => Origin.noConfusion (horigin.symm.trans h.1)]
    split <;> rfl
  · next run horigin =>
    by_cases h : s.cab.bg.op ≠ .idle ∧ s.cab.bg.run = run
    · rw [if_pos h, if_pos ⟨by rw [horigin, h.2], h.1⟩]
      rfl
    · rw [if_neg h, if_neg fun h' => h ⟨h'.2, by injection horigin.symm.trans h'.1 with heq; exact heq.symm⟩]
  · next hbackground => rw [if_neg fun h => hbackground _ h.1]

end Completion

/-- Settles O34: the line write, the bank's record, and the completion by its maker. -/
theorem writeCompletes : Obligations.WriteCompletes := by
  unfold Obligations.WriteCompletes
  intro s x hlive hwf hhead hwrite
  have hexec : exec .writeCompletion s = .next (reportWrite x.req (writeDriven x s)) := by
    show Host.Outcome.next (finishWrite s) = _
    rw [finishWrite, hhead]
    exact congrArg Host.Outcome.next (if_pos ⟨hlive, hwrite⟩)
  obtain ⟨w, n, heq⟩ := reportWrite_frame x.req (writeDriven x s)
  have hmem : (reportWrite x.req (writeDriven x s)).mem = s.mem.writeLine x.req.line x.req.data x.req.masks := by
    rw [heq]
    rfl
  have hback : (reportWrite x.req (writeDriven x s)).back = (writeDriven x s).back := by rw [heq]
  refine ⟨_, hexec, ?_, fun i => ?_, fun a ha => ?_, ?_, fun r i hne => ?_, ?_, reportWrite_completed,
    fun y d f left out rest horigin hwork => ?_, fun h => reportWrite_work h⟩
  · rw [hmem, heq]
    rfl
  · rw [hmem, Memory.readByte_writeLine_in hwf]
  · rw [hmem, Memory.readByte_writeLine_out hwf _ _ _ ha]
  · rw [hback]
    exact BackCtl.onBank_bank_self _ _ _ _
  · rw [hback]
    exact BackCtl.onBank_bank_of_ne _ hne _
  · intro r
    rw [hback]
    exact timersOnly_advance x.finish s r
  · rw [reportWrite_filling (s := writeDriven x s) horigin hwork]
    rfl

/-! ## Background lines -/

theorem toNat_backLineAt {n base : Nat} (h : base + n * 64 < 2 ^ 31) (hbase : base % 64 = 0) :
    (backLineAt (base + n * 64)).toNat * 64 = base + n * 64 := by
  rw [backLineAt, BitVec.toNat_ofNat, Nat.mod_eq_of_lt (by omega)]
  omega

theorem eq_backLineAt {l : BackLine} {a : Nat} (h : l.toNat * 64 = a) : l = backLineAt a := by
  apply BitVec.eq_of_toNat_eq
  have hl := l.isLt
  rw [backLineAt, BitVec.toNat_ofNat, Nat.mod_eq_of_lt (by omega)]
  omega

section Background

variable {s : State}

theorem backgroundLine_scrub (hop : s.cab.bg.op = .scrub) (hnext : s.cab.bg.next < 1179648) {l : BackLine}
    (hl : l.toNat * 64 = pabBase s.seeds.pab + s.cab.bg.next * 64) : backgroundLine s = some (l, zeroLine) := by
  simp only [backgroundLine, hop]
  rw [eq_backLineAt hl]
  exact if_pos hnext

theorem backgroundLine_mapClear {k : LineKey} (hop : s.cab.bg.op = .mapClear) (hnext : s.cab.bg.next < 131072)
    (hkey : mapKey s = some k) {l : BackLine} (hl : l.toNat * 64 = pabBase s.seeds.pab + 0x04000000 + s.cab.bg.next * 64) :
    backgroundLine s = some (l, encipher k l zeroLine) := by
  have hline : mapBackLine s.seeds.pab (BitVec.ofNat 17 s.cab.bg.next) = l := by
    rw [mapBackLine, BitVec.toNat_ofNat, Nat.mod_eq_of_lt (by omega)]
    exact (eq_backLineAt hl).symm
  simp only [backgroundLine, hop, hkey, hline]
  exact if_pos hnext

/-- After its last line, and with no operation, nothing is offered. -/
theorem backgroundLine_eq_none (h : s.cab.bg.op = .idle ∨ s.cab.bg.op = .scrub ∧ 1179648 ≤ s.cab.bg.next ∨
    s.cab.bg.op = .mapClear ∧ 131072 ≤ s.cab.bg.next) : backgroundLine s = none := by
  obtain hop | ⟨hop, hnext⟩ | ⟨hop, hnext⟩ := h <;> simp only [backgroundLine, hop]
  · exact if_neg (Nat.not_lt.mpr hnext)
  · exact if_neg (Nat.not_lt.mpr hnext)

theorem offerBackground_of_line {l : BackLine} {data : Line} (hlive : live s = true) (hline : backgroundLine s = some (l, data)) :
    (mayEnter .background s = true → offerBackground s = { s with
      back := { s.back.push true l (.background s.cab.bg.run) 0#3 data 0#64 with waiting := s.back.waiting.erase .background }
      cab := { s.cab with bg := { s.cab.bg with next := s.cab.bg.next + 1 } } }) ∧
    (mayEnter .background s = false → offerBackground s = { s with back := s.back.await .background }) := by
  refine ⟨fun hmay => ?_, fun hmay => ?_⟩ <;> simp only [offerBackground, hline, hlive, hmay, if_true]
  · rfl
  · exact beginWait_back _ s

end Background

/-- Settles O35: the next line by its operation, and the two ends by their counts. -/
theorem backgroundLines : Obligations.BackgroundLines := by
  unfold Obligations.BackgroundLines
  refine ⟨fun s l data hlive hline => ?_, fun s h => ?_, fun s hlive => ⟨fun hop hcount => ?_, fun hop hcount => ?_,
    fun h => ?_, fun h => ?_⟩⟩
  · have hnext : backgroundLine s = some (l, data) := by
      obtain ⟨hop, hlt, rfl, hl⟩ | ⟨k, hop, hlt, hkey, rfl, hl⟩ := hline
      · exact backgroundLine_scrub hop hlt hl
      · exact backgroundLine_mapClear hop hlt hkey hl
    obtain ⟨henters, hwaits⟩ := offerBackground_of_line hlive hnext
    exact ⟨fun hmay => congrArg Host.Outcome.next (henters hmay), fun hmay => congrArg Host.Outcome.next (hwaits hmay)⟩
  · show Host.Outcome.next (offerBackground s) = _
    rw [offerBackground, backgroundLine_eq_none h]
  · show Host.Outcome.next (finishScrub s) = _
    rw [finishScrub, if_pos ⟨hlive, hop, hcount.ge⟩]
    exact congrArg Host.Outcome.next (if_pos (c := live _ = true) hlive)
  · show Host.Outcome.next (finishClear s) = _
    rw [finishClear, if_pos ⟨hlive, hop, hcount.ge⟩]
    exact congrArg Host.Outcome.next (if_pos (c := live _ = true) hlive)
  · show Host.Outcome.next (finishScrub s) = _
    rw [finishScrub, if_neg]
    rintro ⟨-, hop, hcount⟩
    exact h.elim (fun h => h hop) (Nat.not_lt.mpr hcount)
  · show Host.Outcome.next (finishClear s) = _
    rw [finishClear, if_neg]
    rintro ⟨-, hop, hcount⟩
    exact h.elim (fun h => h hop) (Nat.not_lt.mpr hcount)

/-! ## The automatic precharge and the end of START-UP -/

/-- The clock from which a recorded clock allows a command. -/
theorem getD_map_add_le_iff {last : Option Nat} {n m : Nat} :
    (last.map fun c => c + n).getD 0 ≤ m ↔ ∀ c, last = some c → c + n ≤ m := by
  cases last <;> simp

theorem autoClock_autoAt {b : BackCtl} {r : Fin 2} {i : Fin 8} {from' : Nat} (h : (b.bank r i).closing = some from') :
    AutoAt r i from' (b.autoClock r i) b := by
  intro n
  rw [BackCtl.autoClock, h, Option.getD_some]
  simp only [Nat.max_le, getD_map_add_le_iff]

/-- Settles O32: the clock of the precharge is the least that R123 allows; START-UP ends with fresh records. -/
theorem ownPrecharges : Obligations.OwnPrecharges := by
  unfold Obligations.OwnPrecharges
  refine ⟨fun s r i from' hlive hclosing => ?_, fun s u c hlive hstart hc => ?_⟩
  · refine ⟨s.onBack fun b => (b.precharged r i (s.back.autoClock r i)).advance (s.back.autoClock r i),
      s.back.autoClock r i, ?_, rfl, ?_, fun r' i' hne => ?_, ?_, autoClock_autoAt hclosing⟩
    · exact congrArg Host.Outcome.next (if_pos ⟨hlive, by rw [hclosing]; rfl⟩)
    · exact s.back.precharged_bank_self r i _
    · exact s.back.precharged_bank_of_ne hne _
    · exact timersOnly_advance _ s
  · show Host.Outcome.next (finishStartUp s) = _
    subst hc
    rw [finishStartUp, hstart]
    exact congrArg Host.Outcome.next (if_pos hlive)

end Sys2Proof.Machine

/-! PROOFS. The command path: when a command meets its timing rule, what each of the five places of R125 takes, and the
command the path carries (CommandPathOrder). -/

namespace Sys2Proof.Machine

/-! ## The timing rules -/

theorem since_iff {last : Option Nat} {n t : Nat} : since last n t = true ↔ ∀ c, last = some c → c + n ≤ t := by
  cases last <;> simp [since]

namespace BackCtl

variable {b : BackCtl} {r : Fin 2} {i : Fin 8} {t : Nat} {q : BackReq} {x : PathCmd}

theorem mayPrechargeCmd_iff : b.mayPrechargeCmd r i t = true ↔ PreMeets r i t b := by
  simp only [mayPrechargeCmd, mayPrecharge, PreMeets, Bool.and_eq_true, since_iff, Option.isSome_iff_ne_none,
    Option.isNone_iff_eq_none]
  tauto

theorem mayActivate_iff : b.mayActivate r i t = true ↔ ActMeets r i t b := by
  have hfour : (b.ranks[r].history.length < 4 ∨ ∀ c, b.ranks[r].history.head? = some c → c + b.timing.tFAW ≤ t) ↔
      ∀ c, b.ranks[r].history.head? = some c → 4 ≤ b.ranks[r].history.length → c + b.timing.tFAW ≤ t :=
    ⟨fun h c hc hlen => h.elim (fun h => absurd hlen (Nat.not_le.mpr h)) fun h => h c hc,
      fun h => (Nat.lt_or_ge _ 4).imp id fun hlen c hc => h c hc hlen⟩
  simp only [mayActivate, ActMeets, Bool.and_eq_true, Bool.or_eq_true, decide_eq_true_eq, beq_iff_eq, since_iff,
    Option.isNone_iff_eq_none, hfour]
  tauto

theorem pathFree_iff {write : Bool} {c : Nat} : b.pathFree r write c = true ↔
    ∀ x, b.dataPath = some x → x.finish + (if x.rank = r ∧ x.write = write then 0 else 2) ≤ c := by
  cases hpath : b.dataPath with
  | none => simp [pathFree, hpath]
  | some x =>
    by_cases hsame : x.rank = r ∧ x.write = write
    · simp [pathFree, hpath, hsame]
    · simp only [pathFree, hpath, Option.some.injEq, forall_eq', if_neg hsame, Bool.and_eq_true, beq_iff_eq,
        decide_eq_true_eq]

theorem mayColumn_iff : b.mayColumn q t = true ↔ ColMeets q t b := by
  simp only [mayColumn, ColMeets, Bool.and_eq_true, Bool.or_eq_true, beq_iff_eq, since_iff, Option.isNone_iff_eq_none,
    pathFree_iff, burstStart, Timing.wl, List.all_eq_true, List.mem_finRange, true_implies]
  rw [show ∀ P : Prop, (q.write = true ∨ P) = (q.write = false → P) from fun P => by cases q.write <;> simp]
  simp only [and_assoc]

/-! ## What the places take -/

theorem refreshStep_eq_some : b.refreshStep r t = some x ↔ RefreshTakes r t b x := by
  unfold refreshStep RefreshTakes
  by_cases hidle : ∀ i, (b.bank r i).row = none
  · have hall : ((List.finRange 8).all fun i => (b.bank r i).row.isNone) = true := by simpa using hidle
    have hpre : ((List.finRange 8).all fun i => since (b.bank r i).lastPre b.timing.tRP t) = true ↔
        ∀ i c, (b.bank r i).lastPre = some c → c + b.timing.tRP ≤ t := by simp [since_iff]
    rw [if_pos hall]
    constructor
    · intro h
      split at h
      · next hwaited => exact .inl ⟨fun i => ⟨hidle i, hpre.mp hwaited i⟩, (Option.some.inj h).symm⟩
      · exact absurd h (by simp)
    · rintro (⟨hready, rfl⟩ | ⟨i, -, hmeets, -⟩)
      · exact if_pos (hpre.mpr fun i => (hready i).2)
      · exact absurd (hidle i) hmeets.1
  · have hall : ¬((List.finRange 8).all fun i => (b.bank r i).row.isNone) = true := by simpa using hidle
    rw [if_neg hall, ← Fin.find?_eq_find?_finRange, Option.map_eq_some_iff]
    simp only [Fin.find?_eq_some_iff, mayPrechargeCmd_iff, ← Bool.not_eq_true]
    constructor
    · rintro ⟨i, ⟨hmeets, hlow⟩, rfl⟩
      exact .inr ⟨i, rfl, hmeets, hlow⟩
    · rintro (⟨hready, -⟩ | ⟨i, rfl, hmeets, hlow⟩)
      · exact absurd (fun i => (hready i).1) hidle
      · exact ⟨i, ⟨hmeets, hlow⟩, rfl⟩

theorem prepare_eq_some : b.prepare q t = some x ↔ Prepares q t b x := by
  unfold prepare Prepares
  dsimp only
  cases hrow : (b.bank q.place.rank q.place.bank).row with
  | none =>
    simp only [Option.ite_none_right_eq_some, mayActivate_iff]
    constructor
    · rintro ⟨hmeets, h⟩
      exact .inr ⟨hmeets, (Option.some.inj h).symm⟩
    · rintro (⟨-, hmeets, -⟩ | ⟨hmeets, rfl⟩)
      · exact absurd hrow hmeets.1
      · exact ⟨hmeets, rfl⟩
  | some y =>
    by_cases hsame : y = q.place.row
    · simp only [hsame, if_true, reduceCtorEq, false_iff, not_or, ne_eq, not_true_eq_false, false_and, not_false_eq_true,
        true_and]
      exact fun h => by rw [h.1.1] at hrow; cases hrow
    · simp only [if_neg hsame, Option.ite_none_right_eq_some, mayPrechargeCmd_iff]
      constructor
      · rintro ⟨hmeets, h⟩
        exact .inl ⟨fun h => hsame (Option.some.inj h), hmeets, (Option.some.inj h).symm⟩
      · rintro (⟨-, hmeets, rfl⟩ | ⟨hmeets, -⟩)
        · exact ⟨hmeets, rfl⟩
        · exact absurd (hrow.symm.trans hmeets.1) (by simp)

theorem rankIdle_iff : b.rankIdle r = true ↔ b.ranks[r].state = .normal ∧ ∀ q ∈ b.queue, q.place.rank ≠ r := by
  simp [rankIdle]

theorem idleCloses_iff : (b.dueToClose r i t && b.mayPrechargeCmd r i t) = true ↔ IdleCloses r i t b := by
  have hclose : b.dueToClose r i t = true ↔
      (b.timing.tIDLE ≠ 0 → ∀ c, (b.bank r i).lastCol = some c → c + b.timing.tIDLE ≤ t) ∧
      ∀ q ∈ b.queue, q.place.rank = r → q.place.bank = i → (b.bank r i).row ≠ some q.place.row := by
    have hrow : (b.queue.any fun q => q.place.rank == r && q.place.bank == i && (b.bank r i).row == some q.place.row) = false ↔
        ∀ q ∈ b.queue, q.place.rank = r → q.place.bank = i → (b.bank r i).row ≠ some q.place.row := by
      simp [and_imp]
    simp only [dueToClose, Bool.and_eq_true, Bool.or_eq_true, beq_iff_eq, since_iff, Bool.not_eq_true', hrow,
      or_iff_not_imp_left, ne_eq]
  rw [Bool.and_eq_true, hclose, mayPrechargeCmd_iff, IdleCloses]
  tauto

/-! ## The five places -/

/-- What a place of R125's list gives the path at clock `t`, spelled as the path reads it. -/
def place (n t : Nat) (b : BackCtl) : Option PathCmd :=
  match n with
  | 1 => (List.finRange 2).findSome? fun r => if b.ranks[r].state == .forced then b.refreshStep r t else none
  | 2 => b.served.head?.bind fun q => if b.mayColumn q t then some (.column q.id) else none
  | 3 => b.served.findSome? fun q => b.prepare q t
  | 4 => (List.finRange 2).findSome? fun r =>
      if b.rankIdle r && decide (1 ≤ b.ranks[r].due) then b.refreshStep r t else none
  | 5 => (allBanks.find? fun p => b.dueToClose p.1 p.2 t && b.mayPrechargeCmd p.1 p.2 t).map
      fun p => .precharge p.1 p.2
  | _ => none

/-- The first rank of a kind takes what its refresh needs. -/
theorem findSome?_refreshStep {c : Fin 2 → Bool} :
    ((List.finRange 2).findSome? fun r => if c r then b.refreshStep r t else none) = some x ↔
      ∃ r, c r = true ∧ RefreshTakes r t b x ∧ ∀ r', r' < r → c r' = true → ∀ y, ¬RefreshTakes r' t b y := by
  rw [← Fin.findSome?_eq_findSome?_finRange, Fin.findSome?_eq_some_iff]
  simp only [Option.ite_none_right_eq_some, refreshStep_eq_some, Option.eq_none_iff_forall_ne_some, ne_eq, not_and, and_assoc]
  exact ⟨fun ⟨r, hc, htakes, hlow⟩ => ⟨r, hc, htakes, fun r' hr' hc' y => hlow r' hr' y hc'⟩,
    fun ⟨r, hc, htakes, hlow⟩ => ⟨r, hc, htakes, fun r' hr' y hc' => hlow r' hr' hc' y⟩⟩

theorem place_forced : b.place 1 t = some x ↔ PlaceTakes t b x 1 := by
  refine (findSome?_refreshStep (c := fun r => b.ranks[r].state == .forced)).trans ?_
  simp only [PlaceTakes, beq_iff_eq]

theorem place_column : b.place 2 t = some x ↔ PlaceTakes t b x 2 := by
  simp only [place, PlaceTakes, Option.bind_eq_some_iff, Option.ite_none_right_eq_some, mayColumn_iff, Option.some.injEq,
    eq_comm (a := x)]

theorem place_prepare : b.place 3 t = some x ↔ PlaceTakes t b x 3 := by
  simp only [place, PlaceTakes, List.findSome?_eq_some_iff, prepare_eq_some, Option.eq_none_iff_forall_ne_some, ne_eq]

theorem place_idle : b.place 4 t = some x ↔ PlaceTakes t b x 4 := by
  have hdue (r : Fin 2) : (b.rankIdle r && decide (1 ≤ b.ranks[r].due)) = true ↔
      b.ranks[r].state = .normal ∧ 1 ≤ b.ranks[r].due ∧ ∀ q ∈ b.queue, q.place.rank ≠ r := by
    rw [Bool.and_eq_true, rankIdle_iff, decide_eq_true_eq]
    tauto
  refine (findSome?_refreshStep (c := fun r => b.rankIdle r && decide (1 ≤ b.ranks[r].due))).trans ?_
  simp only [PlaceTakes, hdue]

/-- The lowest bank of a kind, rank 0 before rank 1. -/
theorem find?_allBanks {c : Fin 2 → Fin 8 → Bool} : allBanks.find? (fun p => c p.1 p.2) = some (r, i) ↔
    c r i = true ∧ ∀ r' i', r' < r ∨ r' = r ∧ i' < i → c r' i' = false := by
  rw [allBanks, List.find?_flatMap, ← Fin.findSome?_eq_findSome?_finRange, Fin.findSome?_eq_some_iff]
  simp only [List.find?_map, Option.map_eq_some_iff, Option.map_eq_none_iff, ← Fin.find?_eq_find?_finRange,
    Fin.find?_eq_some_iff, Fin.find?_eq_none_iff, Function.comp_apply, Prod.mk.injEq]
  constructor
  · rintro ⟨_, ⟨_, ⟨hc, hbank⟩, rfl, rfl⟩, hrank⟩
    refine ⟨hc, ?_⟩
    rintro r' i' (hlt | ⟨rfl, hlt⟩)
    · exact hrank r' hlt i'
    · exact hbank i' hlt
  · rintro ⟨hc, hlow⟩
    exact ⟨r, ⟨i, ⟨hc, fun i' hlt => hlow r i' (.inr ⟨rfl, hlt⟩)⟩, rfl, rfl⟩, fun r' hlt i' => hlow r' i' (.inl hlt)⟩

theorem place_close : b.place 5 t = some x ↔ PlaceTakes t b x 5 := by
  simp only [place, PlaceTakes, Option.map_eq_some_iff, Prod.exists,
    find?_allBanks (c := fun r i => b.dueToClose r i t && b.mayPrechargeCmd r i t), idleCloses_iff, ← Bool.not_eq_true]
  exact ⟨fun ⟨r, i, ⟨hcloses, hlow⟩, hx⟩ => ⟨r, i, hx.symm, hcloses, hlow⟩,
    fun ⟨r, i, hx, hcloses, hlow⟩ => ⟨r, i, ⟨hcloses, hlow⟩, hx.symm⟩⟩

theorem place_eq_some {n : Nat} : b.place n t = some x ↔ PlaceTakes t b x n := by
  match n with
  | 0 => simp [place, PlaceTakes]
  | 1 => exact place_forced
  | 2 => exact place_column
  | 3 => exact place_prepare
  | 4 => exact place_idle
  | 5 => exact place_close
  | n + 6 => simp [place, PlaceTakes]

theorem place_eq_none {n : Nat} : b.place n t = none ↔ ∀ y, ¬PlaceTakes t b y n := by
  simp only [Option.eq_none_iff_forall_ne_some, ne_eq, place_eq_some]

theorem pathCommand_eq : b.pathCommand t = (b.place 1 t <|> b.place 2 t <|> b.place 3 t <|> b.place 4 t <|> b.place 5 t) := by
  unfold pathCommand place
  cases b.served.head? <;> rfl

/-- The path carries the command of the first place with any. -/
theorem pathCommand_eq_some : b.pathCommand t = some x ↔ ∃ n, b.place n t = some x ∧ ∀ m, m < n → b.place m t = none := by
  have hzero : b.place 0 t = none := rfl
  rw [pathCommand_eq]
  simp only [Option.orElse_eq_orElse, Option.orElse_eq_or, Option.or_eq_some_iff]
  constructor
  · rintro (h | ⟨h1, h | ⟨h2, h | ⟨h3, h | ⟨h4, h⟩⟩⟩⟩)
    · exact ⟨1, h, fun m hm => by interval_cases m; exact hzero⟩
    · exact ⟨2, h, fun m hm => by interval_cases m <;> assumption⟩
    · exact ⟨3, h, fun m hm => by interval_cases m <;> assumption⟩
    · exact ⟨4, h, fun m hm => by interval_cases m <;> assumption⟩
    · exact ⟨5, h, fun m hm => by interval_cases m <;> assumption⟩
  · rintro ⟨n, h, hlow⟩
    match n with
    | 0 => exact absurd h (by simp [hzero])
    | 1 => exact .inl h
    | 2 => exact .inr ⟨hlow 1 (by decide), .inl h⟩
    | 3 => exact .inr ⟨hlow 1 (by decide), .inr ⟨hlow 2 (by decide), .inl h⟩⟩
    | 4 => exact .inr ⟨hlow 1 (by decide), .inr ⟨hlow 2 (by decide), .inr ⟨hlow 3 (by decide), .inl h⟩⟩⟩
    | 5 => exact .inr ⟨hlow 1 (by decide), .inr ⟨hlow 2 (by decide), .inr ⟨hlow 3 (by decide), .inr ⟨hlow 4 (by decide), h⟩⟩⟩⟩
    | n + 6 => exact absurd h (by simp [place])

end BackCtl

/-- Settles O27: the guards of the path, and its first place with a command. -/
theorem commandPathOrder : Obligations.CommandPathOrder := by
  unfold Obligations.CommandPathOrder
  intro t s x
  simp only [issued, Option.ite_none_right_eq_some, Bool.and_eq_true, decide_eq_true_eq, since_iff, Nat.succ_le_iff,
    Option.isNone_iff_eq_none, BackCtl.pathCommand_eq_some, BackCtl.place_eq_some, BackCtl.place_eq_none, and_assoc]

end Sys2Proof.Machine

/-! PROOFS. The commands of the path: which rule the one carried keeps, and what its issue makes of the records
(ActivationAndPrechargeRule, ColumnRule). -/

namespace Sys2Proof.Machine

/-! ## Issue -/

theorem Rank.count_eq_add {tREFI n : Nat} {k : Rank} (h : n < k.untilAccrual tREFI) :
    k.count tREFI n = { k with timer := k.timer + n } :=
  if_pos h

/-- Where no return of the timer is noted, it has counted on below its next one. -/
theorem Rank.lt_untilAccrual {tREFI n : Nat} {k : Rank} (h : (k.count tREFI n).accrued = 0) : n < k.untilAccrual tREFI := by
  by_contra hreached
  rw [Rank.count] at h
  simp only [if_neg hreached] at h
  generalize (n - k.untilAccrual tREFI) / tREFI = more at h
  omega

namespace BackCtl

variable {b : BackCtl} {t : Nat}

theorem timely_accrued (h : b.timely t = true) (r : Fin 2) : b.ranks[r].accrued = 0 := by
  rw [timely, Bool.and_eq_true, List.all_eq_true] at h
  have hrank := h.1 r (List.mem_finRange r)
  rw [Bool.and_eq_true, beq_iff_eq] at hrank
  exact hrank.1

/-- While nothing that the clock makes due is left, no timer returns to 0 on the way to it. -/
theorem advance_timely (hstart : b.startUp = none) (h : (b.advance t).timely t = true) (r : Fin 2) :
    t - b.clock < b.ranks[r].untilAccrual b.timing.tREFI := by
  have haccrued := timely_accrued h r
  rw [advance_ranks, hstart] at haccrued
  exact Rank.lt_untilAccrual haccrued

theorem stamp_eq (h : b.clock ≤ t) :
    b.stamp t = { b with ranks := (b.stamp t).ranks, clock := t, lastCommand := some t } := by
  simp only [stamp, advance, Nat.max_eq_right h]

theorem stamp_ranks (hstart : b.startUp = none) {r : Fin 2} (h : t - b.clock < b.ranks[r].untilAccrual b.timing.tREFI) :
    (b.stamp t).ranks[r] = { b.ranks[r] with timer := b.ranks[r].timer + (t - b.clock) } := by
  have hranks : (b.stamp t).ranks[r] = (b.advance t).ranks[r] := rfl
  rw [hranks, advance_ranks, hstart]
  exact Rank.count_eq_add h

end BackCtl

/-! ## What a place takes keeps its rule -/

section Places

variable {t n : Nat} {b : BackCtl}

theorem placeTakes_precharge {r : Fin 2} {i : Fin 8} (h : PlaceTakes t b (.precharge r i) n) : PreMeets r i t b := by
  have hrefresh {r' : Fin 2} (h : RefreshTakes r' t b (.precharge r i)) : PreMeets r i t b := by
    obtain ⟨-, h⟩ | ⟨i', heq, hmeets, -⟩ := h
    · exact PathCmd.noConfusion h
    · obtain ⟨rfl, rfl⟩ := PathCmd.precharge.inj heq
      exact hmeets
  match n with
  | 0 => exact h.elim
  | 1 =>
    obtain ⟨_, _, htakes, _⟩ := h
    exact hrefresh htakes
  | 2 =>
    obtain ⟨_, _, _, h⟩ := h
    exact PathCmd.noConfusion h
  | 3 =>
    obtain ⟨_, q, _, _, ⟨_, hmeets, heq⟩ | ⟨_, h⟩, _⟩ := h
    · obtain ⟨rfl, rfl⟩ := PathCmd.precharge.inj heq
      exact hmeets
    · exact PathCmd.noConfusion h
  | 4 =>
    obtain ⟨_, _, htakes, _⟩ := h
    exact hrefresh htakes
  | 5 =>
    obtain ⟨_, _, heq, hcloses, _⟩ := h
    obtain ⟨rfl, rfl⟩ := PathCmd.precharge.inj heq
    exact hcloses.1
  | n + 6 => exact h.elim

/-- Refreshing a rank takes no activation and no column command. -/
theorem RefreshTakes.refreshes {r : Fin 2} {x : PathCmd} (h : RefreshTakes r t b x) :
    x = .refresh r ∨ ∃ i, x = .precharge r i :=
  h.imp And.right fun ⟨i, heq, _⟩ => ⟨i, heq⟩

theorem placeTakes_activate {r : Fin 2} {i : Fin 8} {row : BitVec 14} (h : PlaceTakes t b (.activate r i row) n) :
    ActMeets r i t b ∧ ∃ q ∈ b.served, q.place.rank = r ∧ q.place.bank = i ∧ q.place.row = row := by
  have hrefresh {r' : Fin 2} (h : RefreshTakes r' t b (.activate r i row)) : False := by
    obtain h | ⟨_, h⟩ := h.refreshes <;> exact PathCmd.noConfusion h
  match n with
  | 0 => exact h.elim
  | 1 =>
    obtain ⟨_, _, htakes, _⟩ := h
    exact (hrefresh htakes).elim
  | 2 =>
    obtain ⟨_, _, _, h⟩ := h
    exact PathCmd.noConfusion h
  | 3 =>
    obtain ⟨before, q, after, hserved, ⟨_, _, h⟩ | ⟨hmeets, heq⟩, _⟩ := h
    · exact PathCmd.noConfusion h
    · obtain ⟨rfl, rfl, rfl⟩ := PathCmd.activate.inj heq
      exact ⟨hmeets, q, by rw [hserved]; simp, rfl, rfl, rfl⟩
  | 4 =>
    obtain ⟨_, _, htakes, _⟩ := h
    exact (hrefresh htakes).elim
  | 5 =>
    obtain ⟨_, _, h, _⟩ := h
    exact PathCmd.noConfusion h
  | n + 6 => exact h.elim

theorem placeTakes_column {id : Nat} (h : PlaceTakes t b (.column id) n) :
    ∃ q, b.served.head? = some q ∧ q.id = id ∧ ColMeets q t b := by
  have hrefresh {r' : Fin 2} (h : RefreshTakes r' t b (.column id)) : False := by
    obtain h | ⟨_, h⟩ := h.refreshes <;> exact PathCmd.noConfusion h
  match n with
  | 0 => exact h.elim
  | 1 =>
    obtain ⟨_, _, htakes, _⟩ := h
    exact (hrefresh htakes).elim
  | 2 =>
    obtain ⟨q, hhead, hmeets, heq⟩ := h
    exact ⟨q, hhead, (PathCmd.column.inj heq).symm, hmeets⟩
  | 3 =>
    obtain ⟨_, _, _, _, ⟨_, _, h⟩ | ⟨_, h⟩, _⟩ := h <;> exact PathCmd.noConfusion h
  | 4 =>
    obtain ⟨_, _, htakes, _⟩ := h
    exact (hrefresh htakes).elim
  | 5 =>
    obtain ⟨_, _, h, _⟩ := h
    exact PathCmd.noConfusion h
  | n + 6 => exact h.elim

theorem placeTakes_refresh {r : Fin 2} (h : PlaceTakes t b (.refresh r) n) :
    (b.ranks[r].state = .forced ∨
      b.ranks[r].state = .normal ∧ 1 ≤ b.ranks[r].due ∧ ∀ q ∈ b.queue, q.place.rank ≠ r) ∧
    ∀ i, (b.bank r i).row = none ∧ ∀ c, (b.bank r i).lastPre = some c → c + b.timing.tRP ≤ t := by
  have hrefresh {r' : Fin 2} (h : RefreshTakes r' t b (.refresh r)) : r' = r ∧
      ∀ i, (b.bank r' i).row = none ∧ ∀ c, (b.bank r' i).lastPre = some c → c + b.timing.tRP ≤ t := by
    obtain ⟨hready, heq⟩ | ⟨_, h, _⟩ := h
    · exact ⟨(PathCmd.refresh.inj heq).symm, hready⟩
    · exact PathCmd.noConfusion h
  match n with
  | 0 => exact h.elim
  | 1 =>
    obtain ⟨_, hforced, htakes, _⟩ := h
    obtain ⟨rfl, hready⟩ := hrefresh htakes
    exact ⟨.inl hforced, hready⟩
  | 2 =>
    obtain ⟨_, _, _, h⟩ := h
    exact PathCmd.noConfusion h
  | 3 =>
    obtain ⟨_, _, _, _, ⟨_, _, h⟩ | ⟨_, h⟩, _⟩ := h <;> exact PathCmd.noConfusion h
  | 4 =>
    obtain ⟨_, hdue, htakes, _⟩ := h
    obtain ⟨rfl, hready⟩ := hrefresh htakes
    exact ⟨.inr hdue, hready⟩
  | 5 =>
    obtain ⟨_, _, h, _⟩ := h
    exact PathCmd.noConfusion h
  | n + 6 => exact h.elim

end Places

/-! ## The command issued -/

/-- A command that is issued: the clock is not past, no timer returns to 0 on the way to it, and a place takes it. -/
structure Issues (t : Nat) (x : PathCmd) (s : State) : Prop where
  started : s.back.startUp = none
  clock : s.back.clock ≤ t
  timers : ∀ r : Fin 2, t - s.back.clock < s.back.ranks[r].untilAccrual s.back.timing.tREFI
  taken : ∃ n, PlaceTakes t s.back x n

theorem issues_of_issued {t : Nat} {x : PathCmd} {s : State} (h : issued t s = some x) : Issues t x s := by
  obtain ⟨-, hstart, hclock, htimely, -, n, htakes, -⟩ := (commandPathOrder t s x).mp h
  exact ⟨hstart, hclock, BackCtl.advance_timely hstart htimely, n, htakes⟩

section Effects

variable {s : State} {t : Nat}

theorem request_mem {b : BackCtl} {id : Nat} {q : BackReq} (h : b.request id = some q) : q ∈ b.queue ∧ q.id = id :=
  ⟨List.mem_of_find?_eq_some h, by simpa using List.find?_some h⟩

theorem mem_served {b : BackCtl} {q : BackReq} (h : q ∈ b.served) : q ∈ b.queue ∧ q.id ∈ b.service := by
  obtain ⟨id, hid, hrequest⟩ := List.mem_filterMap.mp h
  obtain ⟨hq, rfl⟩ := request_mem hrequest
  exact ⟨hq, hid⟩

theorem issueActivation_eq {r : Fin 2} {i : Fin 8} {row : BitVec 14} (h : issued t s = some (.activate r i row)) :
    issueActivation t s = s.onBack fun b => (b.activated r i row t).stamp t := by
  simp only [issueActivation, h]

theorem issueActivation_of_none (h : ∀ r i row, issued t s ≠ some (.activate r i row)) : issueActivation t s = s := by
  unfold issueActivation
  split
  · next hissued => exact absurd hissued (h _ _ _)
  · rfl

theorem issuePrecharge_eq {r : Fin 2} {i : Fin 8} (h : issued t s = some (.precharge r i)) :
    issuePrecharge t s = s.onBack fun b => (b.precharged r i t).stamp t := by
  simp only [issuePrecharge, h]

theorem issuePrecharge_of_none (h : ∀ r i, issued t s ≠ some (.precharge r i)) : issuePrecharge t s = s := by
  unfold issuePrecharge
  split
  · next hissued => exact absurd hissued (h _ _)
  · rfl

theorem issueColumn_eq {id : Nat} {q : BackReq} (h : issued t s = some (.column id)) (hq : s.back.request id = some q) :
    issueColumn t s = s.onBack fun b => (b.columned q t).stamp t := by
  simp only [issueColumn, h, hq]

theorem issueColumn_of_none (h : ∀ id, issued t s ≠ some (.column id)) : issueColumn t s = s := by
  unfold issueColumn
  split
  · next hissued => exact absurd hissued (h _)
  · rfl

end Effects

/-- The history of an activated rank: the newest of its clocks, at most four of them. -/
theorem drop_append_singleton {l : List Nat} (h : l.length ≤ 4) (t : Nat) :
    (l ++ [t]).drop (l.length + 1 - 4) = (if l.length = 4 then l.tail else l) ++ [t] := by
  split
  · next hfour =>
    rw [hfour, ← List.drop_one]
    exact List.drop_append_of_le_length (by omega)
  · next hfour =>
    rw [show l.length + 1 - 4 = 0 by omega]
    rfl

namespace BackCtl

variable {b : BackCtl} {r : Fin 2} {i : Fin 8} {t : Nat}

theorem activated_bank_self (row : BitVec 14) :
    (b.activated r i row t).bank r i = { b.bank r i with row := some row, lastAct := some t } :=
  b.onBank_bank_self r i fun k => { k with row := some row, lastAct := some t }

theorem activated_bank_of_ne {r' : Fin 2} {i' : Fin 8} (h : (r', i') ≠ (r, i)) (row : BitVec 14) :
    (b.activated r i row t).bank r' i' = b.bank r' i' :=
  b.onBank_bank_of_ne h fun k => { k with row := some row, lastAct := some t }

theorem activated_ranks_self (row : BitVec 14) : (b.activated r i row t).ranks[r] =
    { b.ranks[r] with history := (b.ranks[r].history ++ [t]).drop (b.ranks[r].history.length + 1 - 4) } :=
  onRank_ranks_self _ r _

theorem activated_ranks_of_ne {r' : Fin 2} (h : r' ≠ r) (row : BitVec 14) :
    (b.activated r i row t).ranks[r'] = b.ranks[r'] :=
  onRank_ranks_of_ne _ h _

/-- An activation leaves every rank's record but for its history. -/
theorem activated_ranks (row : BitVec 14) (r' : Fin 2) : (b.activated r i row t).ranks[r'] =
    { b.ranks[r'] with history := (b.activated r i row t).ranks[r'].history } := by
  by_cases h : r' = r
  · subst h
    rw [activated_ranks_self]
  · rw [activated_ranks_of_ne h]

end BackCtl

/-- Settles O28: R121 and R123 from the place that takes the command, and the records of its issue. -/
theorem activationAndPrechargeRule : Obligations.ActivationAndPrechargeRule := by
  unfold Obligations.ActivationAndPrechargeRule
  refine ⟨fun t s => ⟨fun h => congrArg Host.Outcome.next (issueActivation_of_none h),
    fun h => congrArg Host.Outcome.next (issuePrecharge_of_none h)⟩, fun t s r i row h => ?_, fun t s r i h => ?_⟩
  · obtain ⟨hstart, hclock, htimers, n, htakes⟩ := issues_of_issued h
    obtain ⟨⟨hrow, hpre, hrrd, hfaw, hnormal⟩, q, hq, hplace⟩ := placeTakes_activate htakes
    have hstamped (r' : Fin 2) := BackCtl.stamp_ranks (t := t) (b := s.back.activated r i row t) hstart (r := r')
      (by rw [BackCtl.activated_ranks]; exact htimers r')
    have hhistory (r' : Fin 2) : ((s.back.activated r i row t).stamp t).ranks[r'].history =
        (s.back.activated r i row t).ranks[r'].history := by rw [hstamped]
    have hranks (r' : Fin 2) : ((s.back.activated r i row t).stamp t).ranks[r'] = { s.back.ranks[r'] with
        history := ((s.back.activated r i row t).stamp t).ranks[r'].history
        timer := s.back.ranks[r'].timer + (t - s.back.clock) } := by
      rw [hhistory, hstamped, BackCtl.activated_ranks]
      rfl
    refine ⟨hrow, hpre, hrrd, hfaw, hnormal, ⟨q, (mem_served hq).1, (mem_served hq).2, hplace⟩, _,
      congrArg Host.Outcome.next (issueActivation_eq h), ?_, ?_, fun r' i' hne => ?_, fun r' => ?_, fun r' hne => ?_,
      fun hfour => ?_⟩
    · exact congrArg (fun b => { s with back := b }) (BackCtl.stamp_eq (b := s.back.activated r i row t) hclock)
    · exact BackCtl.activated_bank_self (b := s.back) row
    · exact BackCtl.activated_bank_of_ne (b := s.back) hne row
    · exact hranks r'
    · exact (hhistory r').trans (congrArg Rank.history (BackCtl.activated_ranks_of_ne (b := s.back) hne row))
    · refine (hhistory r).trans ((congrArg Rank.history (BackCtl.activated_ranks_self (b := s.back) row)).trans ?_)
      exact drop_append_singleton hfour t
  · obtain ⟨hstart, hclock, htimers, n, htakes⟩ := issues_of_issued h
    obtain ⟨hrow, hclosing, hact, hread, hwrite⟩ := placeTakes_precharge htakes
    refine ⟨hrow, hact, hread, hwrite, _, congrArg Host.Outcome.next (issuePrecharge_eq h), ?_, ?_,
      fun r' i' hne => ?_, fun r' => ?_⟩
    · exact congrArg (fun b => { s with back := b }) (BackCtl.stamp_eq (b := s.back.precharged r i t) hclock)
    · refine (s.back.precharged_bank_self r i t).trans ?_
      rw [← hclosing]
    · exact s.back.precharged_bank_of_ne hne t
    · exact BackCtl.stamp_ranks (b := s.back.precharged r i t) hstart (htimers r')

/-! ## Column commands -/

section Column

variable {b : BackCtl} {q : BackReq} {t : Nat}

/-- The first request in service is that of the first name in the service list that has one. -/
theorem served_head (h : b.served.head? = some q) :
    b.request q.id = some q ∧ b.service.find? (fun n => (b.request n).isSome) = some q.id := by
  rw [BackCtl.served, List.head?_filterMap, List.findSome?_eq_some_iff] at h
  obtain ⟨before, id, after, hservice, hrequest, hnone⟩ := h
  obtain ⟨-, rfl⟩ := request_mem hrequest
  refine ⟨hrequest, List.find?_eq_some_iff_append.mpr ⟨by rw [hrequest]; rfl, before, after, hservice, fun n hn => ?_⟩⟩
  rw [hnone n hn]
  rfl

/-- The Back Controller with a request's burst on its way, before its bank's record is written. -/
def BackCtl.sent (q : BackReq) (t : Nat) (b : BackCtl) : BackCtl := { b with
  queue := b.queue.filter fun x => !(x.id == q.id)
  service := b.service.filter fun x => !(x == q.id)
  bursts := b.bursts ++ [{ req := q, start := b.burstStart q.write t, finish := b.burstStart q.write t + 4 }]
  dataPath := some { rank := q.place.rank, write := q.write, finish := b.burstStart q.write t + 4 } }

/-- A bank's record after a column command at clock `t`. -/
def Bank.columned (write : Bool) (tIDLE t : Nat) (k : Bank) : Bank := { k with
  lastCol := some t, lastRead := if write then k.lastRead else some t, closing := if tIDLE = 0 then some t else none }

theorem columned_eq : b.columned q t =
    (b.sent q t).onBank q.place.rank q.place.bank (.columned q.write b.timing.tIDLE t) := rfl

theorem columned_bank_self : (b.columned q t).bank q.place.rank q.place.bank =
    (b.bank q.place.rank q.place.bank).columned q.write b.timing.tIDLE t :=
  (b.sent q t).onBank_bank_self _ _ _

theorem columned_bank_of_ne {r : Fin 2} {i : Fin 8} (h : (r, i) ≠ (q.place.rank, q.place.bank)) :
    (b.columned q t).bank r i = b.bank r i :=
  (b.sent q t).onBank_bank_of_ne h (.columned q.write b.timing.tIDLE t)

end Column

/-- Settles O29: R122 from the second place, and the burst that the command starts. -/
theorem columnRule : Obligations.ColumnRule := by
  unfold Obligations.ColumnRule
  refine ⟨fun t s h => congrArg Host.Outcome.next (issueColumn_of_none h), fun t s id h => ?_⟩
  obtain ⟨hstart, hclock, htimers, n, htakes⟩ := issues_of_issued h
  obtain ⟨q, hhead, rfl, hrow, -, hact, hpath, hread⟩ := placeTakes_column htakes
  obtain ⟨hrequest, hfirst⟩ := served_head hhead
  refine ⟨q, (request_mem hrequest).1, rfl, hfirst, hrow, hact, fun x hx hrank hwrite => ?_, fun x hx hother => ?_, hread, _,
    congrArg Host.Outcome.next (issueColumn_eq h hrequest), ?_, columned_bank_self, fun r' i' hne => columned_bank_of_ne hne,
    fun r' => ?_⟩
  · have hfree := hpath x hx
    rwa [if_pos ⟨hrank, hwrite⟩] at hfree
  · have hfree := hpath x hx
    rwa [if_neg hother] at hfree
  · exact congrArg (fun b => { s with back := b }) (BackCtl.stamp_eq (b := s.back.columned q t) hclock)
  · exact BackCtl.stamp_ranks (b := s.back.columned q t) hstart (htimers r')

end Sys2Proof.Machine

/-! PROOFS. Refresh: its command, its end, its accrual, and what forcing a rank makes of the queue (RefreshRule,
RefreshAccrues). -/

namespace Sys2Proof.Machine

/-! ## Requests that return to WAITING -/

/-- The largest of a number and the numbers of a list is one of them, and none is above it. -/
theorem foldl_max_spec (l : List Nat) (a : Nat) :
    a ≤ l.foldl max a ∧ (∀ x ∈ l, x ≤ l.foldl max a) ∧ (l.foldl max a = a ∨ l.foldl max a ∈ l) := by
  induction l generalizing a with
  | nil => simp
  | cons y l ih =>
    obtain ⟨hle, hall, hone⟩ := ih (max a y)
    rw [List.foldl_cons]
    refine ⟨le_trans (le_max_left a y) hle, fun x hx => ?_, ?_⟩
    · obtain rfl | hx := List.mem_cons.mp hx
      · exact le_trans (le_max_right a x) hle
      · exact hall x hx
    · obtain heq | hmem := hone
      · rw [heq]
        obtain h | h := le_total a y
        · exact .inr (by simp [h])
        · exact .inl (max_eq_left h)
      · exact .inr (List.mem_cons_of_mem y hmem)

/-- The largest count of a request and of those behind it for its line (R128). -/
def largestCount (q : BackReq) (rest : List BackReq) : Nat :=
  ((rest.filter fun x => x.line == q.line).map BackReq.passOver).foldl max q.passOver

/-- A request as it returns to WAITING, those behind it given. -/
def BackReq.returned (q : BackReq) (rest : List BackReq) : BackReq :=
  { q with
    inService := false, passOver := largestCount q rest, urgent := q.urgent || decide (16 ≤ largestCount q rest) }

theorem returnRequest_cons (r : Fin 2) (q : BackReq) (rest : List BackReq) :
    returnRequest r (q :: rest) =
      (if q.inService && q.place.rank == r then q.returned rest else q) :: returnRequest r rest := rfl

theorem returnRequest_length (r : Fin 2) (l : List BackReq) : (returnRequest r l).length = l.length := by
  induction l with
  | nil => rfl
  | cons q l ih => rw [returnRequest_cons, List.length_cons, List.length_cons, ih]

theorem returnRequest_getElem? (r : Fin 2) {l : List BackReq} {n : Nat} {q : BackReq} (h : l[n]? = some q) :
    (returnRequest r l)[n]? =
      some (if q.inService && q.place.rank == r then q.returned (l.drop (n + 1)) else q) := by
  induction l generalizing n with
  | nil => simp at h
  | cons y l ih =>
    rw [returnRequest_cons]
    cases n with
    | zero =>
      obtain rfl : y = q := by simpa using h
      rfl
    | succ n =>
      rw [List.getElem?_cons_succ] at h ⊢
      exact ih h

/-- What lies behind a place of a list. -/
theorem mem_drop_succ {α : Type} {l : List α} {n : Nat} {x : α} : x ∈ l.drop (n + 1) ↔ ∃ m, n < m ∧ l[m]? = some x := by
  rw [List.mem_iff_getElem?]
  simp only [List.getElem?_drop]
  exact ⟨fun ⟨k, hk⟩ => ⟨n + 1 + k, by omega, hk⟩, fun ⟨m, hlt, hm⟩ => ⟨m - (n + 1), by
    rw [show n + 1 + (m - (n + 1)) = m by omega]; exact hm⟩⟩

/-- The count a request returns with is no lower than its own and those of the younger ones for its line, and one of
them. -/
theorem largestCount_spec (l : List BackReq) (n : Nat) (q : BackReq) :
    q.passOver ≤ largestCount q (l.drop (n + 1)) ∧
    (∀ (m : Nat) (x : BackReq), n < m → l[m]? = some x → x.line = q.line → x.passOver ≤ largestCount q (l.drop (n + 1))) ∧
    (largestCount q (l.drop (n + 1)) = q.passOver ∨
      ∃ (m : Nat) (x : BackReq), n < m ∧ l[m]? = some x ∧ x.line = q.line ∧
        largestCount q (l.drop (n + 1)) = x.passOver) := by
  have hmem {k : Nat} : k ∈ ((l.drop (n + 1)).filter fun x => x.line == q.line).map BackReq.passOver ↔
      ∃ (m : Nat) (x : BackReq), n < m ∧ l[m]? = some x ∧ x.line = q.line ∧ k = x.passOver := by
    simp only [List.mem_map, List.mem_filter, mem_drop_succ, beq_iff_eq]
    exact ⟨fun ⟨x, ⟨⟨m, hlt, hm⟩, hline⟩, hk⟩ => ⟨m, x, hlt, hm, hline, hk.symm⟩,
      fun ⟨m, x, hlt, hm, hline, hk⟩ => ⟨x, ⟨⟨m, hlt, hm⟩, hline⟩, hk.symm⟩⟩
  obtain ⟨hle, hall, hone⟩ := foldl_max_spec (((l.drop (n + 1)).filter fun x => x.line == q.line).map BackReq.passOver) q.passOver
  exact ⟨hle, fun m x hlt hm hline => hall _ (hmem.mpr ⟨m, x, hlt, hm, hline, rfl⟩), hone.imp id hmem.mp⟩

/-! ## Forcing -/

/-- Forcing a rank: its record FORCED, and its requests in service WAITING again. -/
theorem force_forcedOn (r : Fin 2) (s : State) : ForcedOn r s (s.onBack (.force r)) := by
  refine ⟨rfl, BackCtl.onRank_ranks_self _ r _, fun r' hne => BackCtl.onRank_ranks_of_ne _ hne fun k => { k with state := .forced }, ?_,
    returnRequest_length r _, fun n q hq => ⟨fun hstays => ?_, fun hserved hrank => ?_⟩⟩
  · refine List.filter_congr fun id _ => ?_
    cases s.back.request id <;> rfl
  · refine (returnRequest_getElem? r hq).trans ?_
    rw [if_neg (by simpa using hstays)]
  · obtain ⟨hle, hall, hone⟩ := largestCount_spec s.back.queue n q
    refine ⟨largestCount q (s.back.queue.drop (n + 1)), hle, hall, hone, ?_⟩
    refine (returnRequest_getElem? r hq).trans ?_
    rw [if_pos (by simp [hserved, hrank])]
    rfl

/-! ## A refresh and its end -/

section Refresh

variable {s : State} {t : Nat} {r : Fin 2}

theorem issueRefresh_eq (h : issued t s = some (.refresh r)) :
    issueRefresh t s = s.onBack fun b => (b.refreshed r t).stamp t := by
  simp only [issueRefresh, h]

theorem issueRefresh_of_none (h : ∀ r, issued t s ≠ some (.refresh r)) : issueRefresh t s = s := by
  unfold issueRefresh
  split
  · next hissued => exact absurd hissued (h _)
  · rfl

theorem refreshed_ranks_self (b : BackCtl) : (b.refreshed r t).ranks[r] =
    { b.ranks[r] with state := .refreshing, due := b.ranks[r].due - 1, lastRefresh := some t } :=
  BackCtl.onRank_ranks_self b r _

theorem refreshed_ranks_of_ne {r' : Fin 2} (h : r' ≠ r) (b : BackCtl) : (b.refreshed r t).ranks[r'] = b.ranks[r'] :=
  BackCtl.onRank_ranks_of_ne b h fun k => { k with state := .refreshing, due := k.due - 1, lastRefresh := some t }

end Refresh

/-- The Back Controller at the end of a rank's refresh: the clock has moved on and the rank is NORMAL. -/
def BackCtl.refreshEnded (r : Fin 2) (b : BackCtl) : BackCtl :=
  (b.advance (b.refreshEndClock r)).onRank r fun k => { k with state := .normal }

theorem refreshEnded_ranks_self (r : Fin 2) (b : BackCtl) : (b.refreshEnded r).ranks[r] =
    { (b.advance (b.refreshEndClock r)).ranks[r] with state := .normal } :=
  BackCtl.onRank_ranks_self _ r _

theorem refreshEnded_ranks_of_ne {r r' : Fin 2} (h : r' ≠ r) (b : BackCtl) :
    (b.refreshEnded r).ranks[r'] = (b.advance (b.refreshEndClock r)).ranks[r'] :=
  BackCtl.onRank_ranks_of_ne _ h fun k => { k with state := .normal }

theorem endRefresh_eq (r : Fin 2) (b : BackCtl) : b.endRefresh r =
    if (b.refreshEnded r).ranks[r].due = 8 then (b.refreshEnded r).force r else b.refreshEnded r := by
  simp only [BackCtl.endRefresh, beq_iff_eq]
  rfl

/-- The clock moves no rank's due and no rank's state. -/
theorem advance_kept (t : Nat) (b : BackCtl) (r : Fin 2) :
    (b.advance t).ranks[r].due = b.ranks[r].due ∧ (b.advance t).ranks[r].state = b.ranks[r].state := by
  rw [BackCtl.advance_ranks]
  split
  · exact ⟨rfl, rfl⟩
  · rw [Rank.count_eq]
    exact ⟨rfl, rfl⟩

theorem refreshEnded_due (s : State) (r : Fin 2) : (s.back.refreshEnded r).ranks[r].due = s.back.ranks[r].due := by
  rw [refreshEnded_ranks_self]
  exact (advance_kept _ s.back r).1

/-- Forcing a rank whose state alone another record of it differs in. -/
theorem forcedOn_congr {r : Fin 2} {m n u : State} (h : ForcedOn r n u)
    (hn : n = { m with back := { m.back with ranks := n.back.ranks } })
    (hself : ({ n.back.ranks[r] with state := .forced } : Rank) = { m.back.ranks[r] with state := .forced })
    (hother : ∀ r' : Fin 2, r' ≠ r → n.back.ranks[r'] = m.back.ranks[r']) : ForcedOn r m u := by
  obtain ⟨hu, hrank, hranks, hservice, hlength, hqueue⟩ := h
  have hq : n.back.queue = m.back.queue := by rw [hn]
  have hs : n.back.service = m.back.service := by rw [hn]
  have hrequest (id : Nat) : n.back.request id = m.back.request id := by rw [BackCtl.request, hq]; rfl
  refine ⟨?_, hrank.trans hself, fun r' hne => (hranks r' hne).trans (hother r' hne), ?_, ?_, ?_⟩
  · rw [hn] at hu
    exact hu
  · rw [hservice, hs]
    simp only [hrequest]
  · rw [hlength, hq]
  · rwa [hq] at hqueue

/-- Settles O30: the rule from the place that takes the refresh, and its end with the rank NORMAL or FORCED. -/
theorem refreshRule : Obligations.RefreshRule := by
  unfold Obligations.RefreshRule
  refine ⟨fun t s h => congrArg Host.Outcome.next (issueRefresh_of_none h), fun s r h => ?_, fun t s r h => ?_,
    fun s r c hlive hstate hlast => ?_⟩
  · exact congrArg Host.Outcome.next (if_neg fun hboth => h hboth.2)
  · obtain ⟨hstart, hclock, htimers, n, htakes⟩ := issues_of_issued h
    obtain ⟨hwhy, hready⟩ := placeTakes_refresh htakes
    refine ⟨hwhy, hready, _, congrArg Host.Outcome.next (issueRefresh_eq h), ?_, ?_, fun r' hne => ?_⟩
    · exact congrArg (fun b => { s with back := b }) (BackCtl.stamp_eq (b := s.back.refreshed r t) hclock)
    · refine (BackCtl.stamp_ranks (b := s.back.refreshed r t) hstart ?_).trans ?_
      · rw [refreshed_ranks_self]
        exact htimers r
      · rw [refreshed_ranks_self]
        rfl
    · refine (BackCtl.stamp_ranks (b := s.back.refreshed r t) hstart ?_).trans ?_
      · rw [refreshed_ranks_of_ne hne]
        exact htimers r'
      · rw [refreshed_ranks_of_ne hne]
        rfl
  · have hclock : s.back.refreshEndClock r = c + s.back.timing.tRFC := by rw [BackCtl.refreshEndClock, hlast]; rfl
    have hexec : exec (.refreshEnd r) s = .next (s.onBack (.endRefresh r)) :=
      congrArg Host.Outcome.next (if_pos ⟨hlive, hstate⟩)
    refine ⟨s.onBack (.advance (s.back.refreshEndClock r)), _, hexec, ?_, timersOnly_advance _ s, fun hdue => ?_, fun hdue => ?_⟩
    · rw [← hclock]
      rfl
    · have heq : s.back.endRefresh r = s.back.refreshEnded r := by
        rw [endRefresh_eq, if_neg]
        rw [refreshEnded_due]
        omega
      refine ⟨?_, ?_, fun r' hne => ?_⟩
      · simp only [State.onBack, heq]
        rfl
      · simp only [State.onBack, heq]
        exact refreshEnded_ranks_self r s.back
      · simp only [State.onBack, heq]
        exact refreshEnded_ranks_of_ne hne s.back
    · have heq : s.back.endRefresh r = (s.back.refreshEnded r).force r := by
        rw [endRefresh_eq, if_pos]
        rw [refreshEnded_due, hdue]
      simp only [State.onBack, heq]
      refine forcedOn_congr (force_forcedOn r { s with back := s.back.refreshEnded r }) rfl ?_ fun r' hne => ?_
      · exact congrArg (fun k : Rank => { k with state := .forced }) (refreshEnded_ranks_self r s.back)
      · exact refreshEnded_ranks_of_ne hne s.back

/-! ## Accrual -/

/-- The Back Controller with one noted return of a rank's timer counted. -/
def BackCtl.counted (r : Fin 2) (b : BackCtl) : BackCtl :=
  b.onRank r fun k => { k with accrued := k.accrued - 1, due := min (k.due + 1) 8 }

theorem counted_ranks_self (r : Fin 2) (b : BackCtl) : (b.counted r).ranks[r] =
    { b.ranks[r] with accrued := b.ranks[r].accrued - 1, due := min (b.ranks[r].due + 1) 8 } :=
  BackCtl.onRank_ranks_self b r _

theorem counted_ranks_of_ne {r r' : Fin 2} (h : r' ≠ r) (b : BackCtl) : (b.counted r).ranks[r'] = b.ranks[r'] :=
  BackCtl.onRank_ranks_of_ne b h fun k => { k with accrued := k.accrued - 1, due := min (k.due + 1) 8 }

theorem takeAccrual_eq (r : Fin 2) (b : BackCtl) : b.takeAccrual r =
    if 7 ≤ b.ranks[r].due ∧ b.ranks[r].state = .normal then (b.counted r).force r else b.counted r := by
  have hguard : ((b.counted r).ranks[r].due == Limit.refreshDue && (b.counted r).ranks[r].state == .normal) = true ↔
      7 ≤ b.ranks[r].due ∧ b.ranks[r].state = .normal := by
    rw [Bool.and_eq_true, beq_iff_eq, beq_iff_eq, counted_ranks_self]
    refine and_congr_left fun _ => ?_
    show min (b.ranks[r].due + 1) 8 = 8 ↔ _
    omega
  exact if_congr hguard rfl rfl

/-- At the clock of its next return to 0 a timer stands at 0, with that return noted. -/
theorem advance_accrualClock {b : BackCtl} {r : Fin 2} (hstart : b.startUp = none) (h : b.ranks[r].accrued = 0) :
    (b.advance (b.accrualClock r)).ranks[r].timer = 0 ∧ (b.advance (b.accrualClock r)).ranks[r].accrued = 1 := by
  have hclock : b.accrualClock r - b.clock = b.ranks[r].untilAccrual b.timing.tREFI := by
    rw [BackCtl.accrualClock, Nat.add_sub_cancel_left]
  rw [BackCtl.advance_ranks, hstart, hclock]
  generalize b.ranks[r] = k at h
  simp [Rank.count, h]

/-- A return counted once it is noted: the rank's record, and forcing where it makes the due 8. -/
theorem takeAccrual_spec (r : Fin 2) (m : State) : ∃ m' : State,
    m' = { m with back := { m.back with ranks := m'.back.ranks } } ∧
    m'.back.ranks[r] = { m.back.ranks[r] with
      accrued := m.back.ranks[r].accrued - 1, due := min (m.back.ranks[r].due + 1) 8 } ∧
    (∀ r' : Fin 2, r' ≠ r → m'.back.ranks[r'] = m.back.ranks[r']) ∧
    (m.back.ranks[r].due < 7 ∨ m.back.ranks[r].state ≠ .normal → m.onBack (.takeAccrual r) = m') ∧
    (7 ≤ m.back.ranks[r].due → m.back.ranks[r].state = .normal → ForcedOn r m' (m.onBack (.takeAccrual r))) := by
  refine ⟨m.onBack (.counted r), rfl, counted_ranks_self r m.back, fun r' hne => counted_ranks_of_ne hne m.back,
    fun h => ?_, fun hdue hstate => ?_⟩
  · simp only [State.onBack, takeAccrual_eq]
    rw [if_neg]
    rintro ⟨hdue, hstate⟩
    exact h.elim (fun h => absurd hdue (Nat.not_le.mpr h)) fun h => h hstate
  · simp only [State.onBack, takeAccrual_eq]
    rw [if_pos ⟨hdue, hstate⟩]
    exact force_forcedOn r (m.onBack (.counted r))

/-- Settles O31: the clock stands at the return, which is counted, and forces a NORMAL rank at 8. -/
theorem refreshAccrues : Obligations.RefreshAccrues := by
  unfold Obligations.RefreshAccrues
  intro s r hlive hstart
  have hexec : exec (.refreshAccrual r) s = .next (s.onBack (.accrue r)) :=
    congrArg Host.Outcome.next (if_pos ⟨hlive, hstart⟩)
  by_cases hnoted : s.back.ranks[r].accrued = 0
  · have haccrue : s.onBack (.accrue r) = (s.onBack (.advance (s.back.accrualClock r))).onBack (.takeAccrual r) :=
      congrArg (fun b => { s with back := b }) (if_pos hnoted)
    obtain ⟨hdue, hstate⟩ := advance_kept (s.back.accrualClock r) s.back r
    obtain ⟨m', hm', hself, hother, hcounts, hforces⟩ := takeAccrual_spec r (s.onBack (.advance (s.back.accrualClock r)))
    obtain ⟨htimer, haccrued⟩ := advance_accrualClock hstart hnoted
    have hclock : max s.back.clock (s.back.accrualClock r) =
        s.back.clock + max 1 (s.back.timing.tREFI - s.back.ranks[r].timer) := Nat.max_eq_right (Nat.le_add_right _ _)
    refine ⟨s.onBack (.advance (s.back.accrualClock r)), m', _, hexec, fun h => absurd hnoted h, fun _ => ⟨?_,
      timersOnly_advance _ s, htimer, haccrued⟩, hm', ?_, hother, ?_, ?_⟩
    · rw [← hclock]
      rfl
    · rw [← hdue]
      exact hself
    · rw [haccrue, ← hdue, ← hstate]
      exact hcounts
    · rw [haccrue, ← hdue, ← hstate]
      exact hforces
  · have haccrue : s.onBack (.accrue r) = s.onBack (.takeAccrual r) :=
      congrArg (fun b => { s with back := b }) (if_neg hnoted)
    obtain ⟨m', hm', hself, hother, hcounts, hforces⟩ := takeAccrual_spec r s
    refine ⟨s, m', _, hexec, fun _ => rfl, fun h => absurd h hnoted, hm', hself, hother, ?_, ?_⟩
    · rwa [haccrue]
    · rwa [haccrue]

end Sys2Proof.Machine

/-! PROOFS. Selection: the request that the arbiter chooses, and what its choice makes of queue and service list
(SelectionChooses). -/

namespace Sys2Proof.Machine

/-! ## Names of the queue -/

section Queue

variable {b : BackCtl} {q x y : BackReq}

/-- A name in the queue is that of one request. -/
theorem eq_of_id (hids : (b.queue.map fun q => q.id).Nodup) (hq : q ∈ b.queue) (hx : x ∈ b.queue) (h : x.id = q.id) : x = q :=
  List.inj_on_of_nodup_map hids hx hq h

theorem mem_served_iff (hids : (b.queue.map fun q => q.id).Nodup) : x ∈ b.served ↔ x ∈ b.queue ∧ x.id ∈ b.service := by
  refine ⟨mem_served, fun ⟨hx, hid⟩ => List.mem_filterMap.mpr ⟨x.id, hid, ?_⟩⟩
  obtain ⟨y, hy⟩ : ∃ y, b.request x.id = some y := by
    rw [← Option.isSome_iff_exists, BackCtl.request, List.find?_isSome]
    exact ⟨x, hx, beq_self_eq_true _⟩
  obtain ⟨hmem, hid⟩ := request_mem hy
  rw [hy, eq_of_id hids hx hmem hid]

/-- A queue with names of its own divides at one of its requests by its name. -/
theorem takeWhile_id {older younger : List BackReq} (hids : ((older ++ q :: younger).map fun q => q.id).Nodup) :
    (older ++ q :: younger).takeWhile (fun x => !(x.id == q.id)) = older ∧
      (older ++ q :: younger).dropWhile (fun x => !(x.id == q.id)) = q :: younger := by
  have hother : ∀ x ∈ older, (!(x.id == q.id)) = true := by
    intro x hx
    rw [List.map_append, List.nodup_append] at hids
    simpa using hids.2.2 x.id (List.mem_map_of_mem hx) q.id (by simp)
  have hself : (!(q.id == q.id)) = false := by simp
  constructor
  · rw [List.takeWhile_append_of_pos hother, List.takeWhile_cons_of_neg (by simp), List.append_nil]
  · rw [List.dropWhile_append_of_pos hother, List.dropWhile_cons_of_neg (by simp)]

theorem oldestFor_self (hids : (b.queue.map fun q => q.id).Nodup) (hq : q ∈ b.queue) : OldestFor q q b ↔
    ((b.queue.takeWhile fun x => !(x.id == q.id)).any fun x => x.line == q.line) = false := by
  have hnone (older : List BackReq) : (older.any fun x => x.line == q.line) = false ↔ ∀ z ∈ older, z.line ≠ q.line := by
    simp
  constructor
  · rintro ⟨older, younger, hqueue, -, hlines⟩
    rw [hqueue] at hids ⊢
    rw [(takeWhile_id hids).1]
    exact (hnone older).mpr hlines
  · intro h
    obtain ⟨older, younger, hqueue⟩ := List.append_of_mem hq
    rw [hqueue] at hids h
    rw [(takeWhile_id hids).1] at h
    exact ⟨older, younger, hqueue, rfl, (hnone older).mp h⟩

/-- The oldest request for a request's line is the one the arbiter looks up. -/
theorem lineHead_oldestFor (hx : x ∈ b.queue) : OldestFor x y b ↔ b.lineHead x = y := by
  obtain ⟨z, hz⟩ : ∃ z, b.queue.find? (fun y => y.line == x.line) = some z := by
    rw [← Option.isSome_iff_exists, List.find?_isSome]
    exact ⟨x, hx, beq_self_eq_true _⟩
  have hfound : OldestFor x y b ↔ b.queue.find? (fun y => y.line == x.line) = some y := by
    simp only [List.find?_eq_some_iff_append, OldestFor, beq_iff_eq, Bool.not_eq_true', beq_eq_false_iff_ne]
    exact ⟨fun ⟨older, younger, hqueue, hline, hnone⟩ => ⟨hline, older, younger, hqueue, hnone⟩,
      fun ⟨hline, older, younger, hqueue, hnone⟩ => ⟨older, younger, hqueue, hline, hnone⟩⟩
  rw [hfound, BackCtl.lineHead, hz, Option.getD_some, Option.some.injEq]

theorem oldestFor_mem (h : OldestFor x y b) : y ∈ b.queue := by
  obtain ⟨older, younger, hqueue, -⟩ := h
  rw [hqueue]
  simp

end Queue

/-! ## Eligibility -/

section Eligible

variable {b : BackCtl} {q : BackReq} (hids : (b.queue.map fun q => q.id).Nodup)
include hids

theorem selectable_iff (hq : q ∈ b.queue) : b.selectable q = true ↔ FourHold q b := by
  have hbank : (b.served.any fun x => x.place.rank == q.place.rank && x.place.bank == q.place.bank &&
      x.place.row != q.place.row) = false ↔ ∀ x ∈ b.queue, x.id ∈ b.service → x.place.rank = q.place.rank →
        x.place.bank = q.place.bank → x.place.row = q.place.row := by
    simp [List.any_eq_false, mem_served_iff hids, and_imp]
  simp only [BackCtl.selectable, FourHold, Bool.and_eq_true, Bool.not_eq_true', beq_iff_eq, hbank, oldestFor_self hids hq,
    and_assoc]

theorem eligible_iff (hq : q ∈ b.queue) : b.eligible q = true ↔ MayBeSelected q b := by
  have hclaim : b.claimed q = false ↔ ∀ x ∈ b.queue, x.urgent = true → x ≠ q → x.place.rank = q.place.rank →
      x.place.bank = q.place.bank → ∃ y, OldestFor x y b ∧ FourHold y b := by
    rw [BackCtl.claimed, List.any_eq_false]
    refine forall₂_congr fun x hx => ?_
    have hne : x ≠ q ↔ x.id ≠ q.id := not_congr ⟨fun h => h ▸ rfl, eq_of_id hids hq hx⟩
    have hhead : (∃ y, OldestFor x y b ∧ FourHold y b) ↔ b.selectable (b.lineHead x) = true := by
      have holdest : OldestFor x (b.lineHead x) b := (lineHead_oldestFor hx).mpr rfl
      rw [selectable_iff hids (oldestFor_mem holdest)]
      constructor
      · rintro ⟨y, hy, hfour⟩
        rwa [(lineHead_oldestFor hx).mp hy]
      · exact fun hfour => ⟨_, holdest, hfour⟩
    rw [hne, hhead]
    simp only [Bool.and_eq_true, Bool.not_eq_true', beq_iff_eq, bne_iff_ne]
    rw [← Bool.not_eq_true]
    tauto
  rw [BackCtl.eligible, Bool.and_eq_true, Bool.not_eq_true', selectable_iff hids hq, hclaim]
  rfl

end Eligible

/-! ## The choice -/

section Choice

variable {b : BackCtl} {q : BackReq} (hids : (b.queue.map fun q => q.id).Nodup)
include hids

/-- The first request of a kind that may be selected. -/
theorem find?_eligible {c : BackReq → Bool} (h : b.queue.find? (fun q => c q && b.eligible q) = some q) :
    ∃ older younger, b.queue = older ++ q :: younger ∧ MayBeSelected q b ∧ c q = true ∧
      ∀ x ∈ older, ¬(c x = true ∧ MayBeSelected x b) := by
  obtain ⟨hq, older, younger, hqueue, hnone⟩ := List.find?_eq_some_iff_append.mp h
  have hmem : q ∈ b.queue := List.mem_of_find?_eq_some h
  rw [Bool.and_eq_true, eligible_iff hids hmem] at hq
  refine ⟨older, younger, hqueue, hq.2, hq.1, fun x hx hboth => ?_⟩
  have hxq : x ∈ b.queue := by rw [hqueue]; exact List.mem_append_left _ hx
  have := hnone x hx
  rw [(eligible_iff hids hxq).mpr hboth.2, hboth.1] at this
  exact Bool.noConfusion this

theorem find?_eligible_eq_none {c : BackReq → Bool} (h : b.queue.find? (fun q => c q && b.eligible q) = none) :
    ∀ x ∈ b.queue, MayBeSelected x b → c x = false := by
  intro x hx hmay
  have := List.find?_eq_none.mp h x hx
  rw [(eligible_iff hids hx).mpr hmay] at this
  simpa using this

/-- The choice is none exactly where no request may be selected. -/
theorem choice_eq_none : b.choice = none ↔ ∀ q ∈ b.queue, ¬MayBeSelected q b := by
  constructor
  · intro h q hq hmay
    simp only [BackCtl.choice, Option.orElse_eq_orElse, Option.orElse_eq_or, Option.or_eq_none_iff] at h
    exact absurd ((eligible_iff hids hq).mpr hmay) (by simpa using List.find?_eq_none.mp h.2.2 q hq)
  · intro h
    have hnone (c : BackReq → Bool) : b.queue.find? (fun q => c q && b.eligible q) = none := by
      refine List.find?_eq_none.mpr fun x hx hboth => ?_
      rw [Bool.and_eq_true, eligible_iff hids hx] at hboth
      exact h x hx hboth.2
    simp only [BackCtl.choice, hnone fun q => q.urgent, hnone b.rowHit]
    simpa using hnone fun _ => true

/-- The choice: the oldest urgent request that may be selected, else the oldest row hit, else the oldest. -/
theorem choice_eq_some (h : b.choice = some q) : ∃ older younger, b.queue = older ++ q :: younger ∧ MayBeSelected q b ∧
    (q.urgent = true ∧ (∀ x ∈ older, ¬(x.urgent = true ∧ MayBeSelected x b)) ∨
      (∀ x ∈ b.queue, MayBeSelected x b → x.urgent = false) ∧
        (HitsRow q b ∧ (∀ x ∈ older, ¬(HitsRow x b ∧ MayBeSelected x b)) ∨
          (∀ x ∈ b.queue, MayBeSelected x b → ¬HitsRow x b) ∧ ∀ x ∈ older, ¬MayBeSelected x b)) := by
  have hhit (x : BackReq) : b.rowHit x = true ↔ HitsRow x b := by rw [BackCtl.rowHit, beq_iff_eq]; rfl
  simp only [BackCtl.choice, Option.orElse_eq_orElse, Option.orElse_eq_or, Option.or_eq_some_iff] at h
  obtain h | ⟨hurgent, h | ⟨hmiss, h⟩⟩ := h
  · obtain ⟨older, younger, hqueue, hmay, hc, hnone⟩ := find?_eligible hids h
    exact ⟨older, younger, hqueue, hmay, .inl ⟨hc, hnone⟩⟩
  · obtain ⟨older, younger, hqueue, hmay, hc, hnone⟩ := find?_eligible hids h
    simp only [hhit] at hc hnone
    exact ⟨older, younger, hqueue, hmay, .inr ⟨find?_eligible_eq_none hids hurgent, .inl ⟨hc, hnone⟩⟩⟩
  · have h' : b.queue.find? (fun q => true && b.eligible q) = some q := by simpa using h
    obtain ⟨older, younger, hqueue, hmay, -, hnone⟩ := find?_eligible hids h'
    refine ⟨older, younger, hqueue, hmay, .inr ⟨find?_eligible_eq_none hids hurgent, .inr ⟨fun x hx hmay => ?_, ?_⟩⟩⟩
    · rw [← hhit, find?_eligible_eq_none hids hmiss x hx hmay]
      exact Bool.false_ne_true
    · exact fun x hx hmay => hnone x hx ⟨rfl, hmay⟩

/-- What a selection makes of the queue: older WAITING requests are passed over, the chosen one is in service. -/
theorem select_eq {older younger : List BackReq} (hqueue : b.queue = older ++ q :: younger) : b.select q = { b with
    queue := older.map BackReq.passed ++ { q with inService := true } :: younger
    service := b.service ++ [q.id] } := by
  rw [hqueue] at hids
  obtain ⟨htake, hdrop⟩ := takeWhile_id hids
  have hyounger : younger.map (fun x => if x.id == q.id then { x with inService := true } else x) = younger := by
    refine (List.map_congr_left fun x hx => ?_).trans (List.map_id younger)
    rw [List.map_append, List.map_cons, List.nodup_append, List.nodup_cons] at hids
    have hne : x.id ≠ q.id := fun h => hids.2.1.1 (h ▸ List.mem_map_of_mem hx)
    exact if_neg (by simpa using hne)
  rw [BackCtl.select, hqueue, htake, hdrop, List.map_cons, hyounger, if_pos (beq_self_eq_true _)]

end Choice

/-- Settles O26: the arbiter's choice among the eligible requests, and its effect. -/
theorem selectionChooses : Obligations.SelectionChooses := by
  unfold Obligations.SelectionChooses
  intro s hlive hstart htimely ⟨_, _, hids, _⟩
  have hexec {q : BackReq} (hq : s.back.choice = some q) (hfew : s.back.service.length < 4) :
      exec .selection s = .next (s.onBack (.select q)) := by
    show Host.Outcome.next (selectNext s) = _
    rw [selectNext, hq]
    exact congrArg Host.Outcome.next (if_pos ⟨hlive, hstart, htimely, hfew⟩)
  have hnothing (h : 4 ≤ s.back.service.length ∨ s.back.choice = none) : exec .selection s = .next s := by
    show Host.Outcome.next (selectNext s) = _
    rw [selectNext]
    cases hchoice : s.back.choice with
    | none => rfl
    | some q =>
      refine congrArg Host.Outcome.next (if_neg fun hall => ?_)
      exact h.elim (fun h => absurd hall.2.2.2 (Nat.not_lt.mpr h)) fun h => absurd (hchoice.symm.trans h) (by simp)
  refine ⟨fun h => hnothing (h.imp id (choice_eq_none hids).mpr), fun hfew ⟨q, hq, hmay⟩ => ?_⟩
  obtain ⟨q', hchoice⟩ : ∃ q', s.back.choice = some q' := by
    rw [← Option.ne_none_iff_exists']
    exact fun h => (choice_eq_none hids).mp h q hq hmay
  obtain ⟨older, younger, hqueue, hmay', hfirst⟩ := choice_eq_some hids hchoice
  refine ⟨older, q', younger, hqueue, hmay', hfirst, ?_⟩
  rw [hexec hchoice hfew, State.onBack, select_eq hids hqueue]
  rfl

end Sys2Proof.Machine

/-! PROOFS. CONFIGURE: the steps of its judgement and each of its ten items (ConfigureItems). -/

namespace Sys2Proof.Machine

/-! ## The judgement (R201) -/

section Judgement

variable {f : Frame} {s : State} {own top item i : Nat} {v : List Byte} {taken : State → Bool} {rule : Nat → State → Reply}

theorem SentItem.sent (h : SentItem f item i v s) : Sent f 8 s := by
  obtain ⟨hlive, haddr, hlen, -, -, hargs⟩ := h
  exact ⟨hlive, haddr, by rw [hargs, List.length_cons, List.length_cons, hlen]⟩

theorem SentItem.named (h : SentItem f item i v s) : (argByte f.args 0).toNat = item := by
  obtain ⟨-, -, -, hitem, -, hargs⟩ := h
  rw [hargs]
  exact (BitVec.toNat_ofNat item 8).trans (Nat.mod_eq_of_lt hitem)

theorem SentItem.index (h : SentItem f item i v s) : (argByte f.args 1).toNat = i := by
  obtain ⟨-, -, -, -, hindex, hargs⟩ := h
  rw [hargs]
  exact (BitVec.toNat_ofNat i 8).trans (Nat.mod_eq_of_lt hindex)

/-- A CONFIGURE of the row's item, or of none of the ten, is judged. -/
theorem configure_judged (h : SentItem f item i v s) (hitem : item = own ∨ item = 0 ∨ 10 < item) {c : AnsCode} {u : State}
    (hreply : (if item ≠ own then reply .range (acknowledge true s)
      else if top < i then reply .range (acknowledge true s)
      else if taken (acknowledge true s) = false then reply .state (acknowledge true s)
      else rule i (acknowledge true s)) = reply c (acknowledge true u)) :
    configure f own top taken rule s = u.answer c [] := by
  unfold configure
  dsimp only
  rw [if_neg (by rw [h.named]; omega)]
  refine takeFrame_of_reply h.sent ?_
  rw [h.named, h.index]
  exact hreply

theorem configure_unknown (h : SentItem f item i v s) (hown : 1 ≤ own ∧ own ≤ 10) (hitem : item = 0 ∨ 10 < item) :
    configure f own top taken rule s = s.answer .range [] :=
  configure_judged h (.inr hitem) (if_pos (by omega))

theorem configure_index (h : SentItem f own i v s) (hi : top < i) : configure f own top taken rule s = s.answer .range [] :=
  configure_judged h (.inl rfl) (by rw [if_neg (not_not.mpr rfl), if_pos hi])

theorem configure_untaken (h : SentItem f own i v s) (hi : i ≤ top) (htaken : taken (acknowledge true s) = false) :
    configure f own top taken rule s = s.answer .state [] :=
  configure_judged h (.inl rfl) (by rw [if_neg (not_not.mpr rfl), if_neg (Nat.not_lt.mpr hi), if_pos htaken])

theorem configure_ruled (h : SentItem f own i v s) (hi : i ≤ top) (htaken : taken (acknowledge true s) = true)
    {c : AnsCode} {u : State} (hrule : rule i (acknowledge true s) = reply c (acknowledge true u)) :
    configure f own top taken rule s = u.answer c [] :=
  configure_judged h (.inl rfl) (by
    rw [if_neg (not_not.mpr rfl), if_neg (Nat.not_lt.mpr hi), if_neg (by rw [htaken]; exact Bool.noConfusion), hrule])

theorem blankOrZeroed_iff : blankOrZeroed s = true ↔ Settable s := by
  simp [blankOrZeroed, Settable]

theorem blankOrZeroed_eq_false : blankOrZeroed s = false ↔ ¬Settable s := by
  rw [← Bool.not_eq_true, blankOrZeroed_iff]

theorem blankOnly_iff : blankOnly s = true ↔ s.cab.cabinet = .blank := by
  simp [blankOnly]

end Judgement

/-! ## Values -/

theorem toNat_word (x y : Byte) : (y ++ x).toNat = x.toNat + 256 * y.toNat := by
  rw [toNat_append_eq y x]
  omega

theorem argFlag_zero : argFlag 0#8 = some false := rfl
theorem argFlag_one : argFlag 1#8 = some true := rfl

theorem argFlag_of_le {b : Byte} (h : b.toNat ≤ 1) : argFlag b = some (decide (b = 1#8)) := by
  obtain rfl | rfl : b = 0#8 ∨ b = 1#8 := by
    rcases Nat.le_one_iff_eq_zero_or_eq_one.mp h with h | h
    · exact .inl (BitVec.eq_of_toNat_eq h)
    · exact .inr (BitVec.eq_of_toNat_eq h)
  · rfl
  · rfl

theorem argFlag_of_lt {b : Byte} (h : 1 < b.toNat) : argFlag b = none := by
  have hzero : b ≠ 0#8 := fun heq => by subst heq; exact absurd h (by decide)
  have hone : b ≠ 1#8 := fun heq => by subst heq; exact absurd h (by decide)
  rw [argFlag, if_neg hzero, if_neg hone]

/-! ## Back timing (R120) -/

/-- The clock of an automatic precharge is one alone. -/
theorem AutoAt.unique {r : Fin 2} {i : Fin 8} {from' c c' : Nat} {b : BackCtl} (h : AutoAt r i from' c b)
    (h' : AutoAt r i from' c' b) : c = c' :=
  Nat.le_antisymm ((h c').mpr ((h' c').mp le_rfl)) ((h' c).mpr ((h c).mp le_rfl))

theorem retimeBank_of_open {r : Fin 2} {i : Fin 8} {b : BackCtl} (h : (b.bank r i).closing = none) :
    b.retimeBank r i = b.bank r i := by
  rw [BackCtl.retimeBank, BackCtl.autoDue, h]
  rw [if_neg (by simp)]
  generalize b.bank r i = k at h ⊢
  obtain ⟨_, _, _, _, _, _, _⟩ := k
  subst h
  rfl

theorem retimeBank_of_closing {r : Fin 2} {i : Fin 8} {b : BackCtl} {from' c : Nat}
    (h : (b.bank r i).closing = some from') (hc : AutoAt r i from' c b) : b.retimeBank r i =
      if c ≤ b.clock then { b.bank r i with row := none, lastPre := some c, closing := none }
      else { b.bank r i with closing := some (max from' b.clock) } := by
  obtain rfl : c = b.autoClock r i := hc.unique (autoClock_autoAt h)
  rw [BackCtl.retimeBank, BackCtl.autoDue, h]
  dsimp only
  refine if_congr ?_ rfl rfl
  simp

theorem retime_banks (timing : Timing) (b : BackCtl) (r : Fin 2) (k : Fin 8) :
    (b.retime timing).banks[bankIx r k] = b.retimeBank r k := by
  have hr : Fin.ofNat 2 ((r.val * 8 + k.val) / 8) = r := Fin.ext (by simp only [Fin.val_ofNat]; omega)
  have hk : Fin.ofNat 8 (r.val * 8 + k.val) = k := Fin.ext (by simp only [Fin.val_ofNat]; omega)
  simp only [BackCtl.retime, bankIx, Fin.getElem_fin, Vector.getElem_ofFn, hr, hk]

/-- Each timing parameter, set by its index alone and clamped into its range. -/
theorem Timing.set_spec (i n : Nat) (t : Timing) : i ≤ 10 →
    (t.set i n).tRCD = (if i = 0 then min 15 (max 2 n) else t.tRCD) ∧
    (t.set i n).tRP = (if i = 1 then min 15 (max 2 n) else t.tRP) ∧
    (t.set i n).tRAS = (if i = 2 then min 40 (max 4 n) else t.tRAS) ∧
    (t.set i n).tRRD = (if i = 3 then min 15 (max 2 n) else t.tRRD) ∧
    (t.set i n).tFAW = (if i = 4 then min 63 (max 8 n) else t.tFAW) ∧
    (t.set i n).rl = (if i = 5 then min 15 (max 3 n) else t.rl) ∧
    (t.set i n).tWR = (if i = 6 then min 15 (max 2 n) else t.tWR) ∧
    (t.set i n).tWTR = (if i = 7 then min 15 (max 2 n) else t.tWTR) ∧
    (t.set i n).tRTP = (if i = 8 then min 15 (max 2 n) else t.tRTP) ∧
    (t.set i n).tRFC = (if i = 9 then min 255 (max 20 n) else t.tRFC) ∧
    (t.set i n).tREFI = (if i = 10 then min 16383 (max 1000 n) else t.tREFI) ∧
    (t.set i n).tIDLE = t.tIDLE := by
  intro hi
  interval_cases i <;> exact ⟨rfl, rfl, rfl, rfl, rfl, rfl, rfl, rfl, rfl, rfl, rfl, rfl⟩

/-! ## The items -/

/-- The base that a two-byte count names (R5, R204). -/
theorem pabIndex_of_count {n : Nat} {p : PabIndex} (h : n * 65536 = pabBase p) :
    ¬(n % 0x800 ≠ 0 ∨ 0x7800 < n) ∧ BitVec.ofNat 4 (n / 0x800) = p := by
  rw [pabBase] at h
  have hn : n = p.toNat * 2048 := by omega
  refine ⟨by omega, BitVec.eq_of_toNat_eq ?_⟩
  rw [BitVec.toNat_ofNat]
  omega

section Items

variable {f : Frame} {s : State} {i : Nat} {v0 v1 v2 v3 v4 v5 : Byte}

theorem configurePab_spec {n : Nat} (hn : valueCount f.args = n) (h : SentItem f 1 i [v0, v1, v2, v3, v4, v5] s) :
    (i = 0 → s.cab.cabinet ≠ .blank → exec (.configurePab f) s = .next (s.answer .state [])) ∧
    (i = 0 → s.cab.cabinet = .blank → n % 2048 ≠ 0 ∨ 30720 < n → exec (.configurePab f) s = .next (s.answer .range [])) ∧
    ∀ p : PabIndex, i = 0 → s.cab.cabinet = .blank → n * 65536 = pabBase p → exec (.configurePab f) s = .next ({ s with
      seeds := { s.seeds with pab := p }, front := { s.front with pabCopy := p } }.answer .accepted []) := by
  refine ⟨fun hi hcab => congrArg Host.Outcome.next (configure_untaken h hi.le ?_),
    fun hi hcab hbad => congrArg Host.Outcome.next (configure_ruled h hi.le (blankOnly_iff.mpr hcab) ?_),
    fun p hi hcab hp => congrArg Host.Outcome.next (configure_ruled h hi.le (blankOnly_iff.mpr hcab) ?_)⟩
  · exact Bool.eq_false_iff.mpr fun htrue => hcab (blankOnly_iff.mp htrue)
  · rw [ruleConfigurePab, hn]
    exact if_pos hbad
  · obtain ⟨hgood, rfl⟩ := pabIndex_of_count hp
    rw [ruleConfigurePab, hn]
    exact if_neg hgood

theorem configureBackTiming_spec (h : SentItem f 2 i [v0, v1, v2, v3, v4, v5] s) :
    (i ≤ 10 → ¬Settable s → exec (.configureBackTiming f) s = .next (s.answer .state [])) ∧
    (i ≤ 10 → Settable s → exec (.configureBackTiming f) s = .next ({ s with
      back := s.back.retime (s.back.timing.set i (valueCount f.args)) }.answer .accepted [])) :=
  ⟨fun hi hno => congrArg Host.Outcome.next (configure_untaken h hi (blankOrZeroed_eq_false.mpr hno)),
    fun hi hset => congrArg Host.Outcome.next (configure_ruled h hi (blankOrZeroed_iff.mpr hset) rfl)⟩

theorem configureChannel_spec (hv0 : valueByte f.args 0 = v0) (h : SentItem f 6 i [v0, v1, v2, v3, v4, v5] s) :
    (i ≤ 7 → ¬Settable s → exec (.configureChannelSettings f) s = .next (s.answer .state [])) ∧
    (i ≤ 7 → Settable s → 1 < v0.toNat → exec (.configureChannelSettings f) s = .next (s.answer .range [])) ∧
    (i ≤ 7 → Settable s → v0.toNat ≤ 1 → exec (.configureChannelSettings f) s = .next ({ s with
      mon := s.mon.onChannel (Fin.ofNat 8 i) (.configure (decide (v0 = 1#8)) (valueByte f.args 1) (valueByte f.args 2)
        (valueByte f.args 3)) }.answer .accepted [])) := by
  refine ⟨fun hi hno => congrArg Host.Outcome.next (configure_untaken h hi (blankOrZeroed_eq_false.mpr hno)),
    fun hi hset hbad => congrArg Host.Outcome.next (configure_ruled h hi (blankOrZeroed_iff.mpr hset) ?_),
    fun hi hset hgood => congrArg Host.Outcome.next (configure_ruled h hi (blankOrZeroed_iff.mpr hset) ?_)⟩
  · rw [ruleConfigureChannel, hv0, argFlag_of_lt hbad]
  · rw [ruleConfigureChannel, hv0, argFlag_of_le hgood]
    rfl

theorem configureMesh_spec (hv0 : valueByte f.args 0 = v0) (h : SentItem f 7 i [v0, v1, v2, v3, v4, v5] s) :
    (i ≤ 1 → ¬Settable s → exec (.configureMeshSettings f) s = .next (s.answer .state [])) ∧
    (i ≤ 1 → Settable s → 1 < v0.toNat → exec (.configureMeshSettings f) s = .next (s.answer .range [])) ∧
    (i ≤ 1 → Settable s → v0.toNat ≤ 1 → exec (.configureMeshSettings f) s = .next ({ s with
      mon := s.mon.onMesh (Fin.ofNat 2 i) (.configure (decide (v0 = 1#8)) (argWord f.args 3).toNat
        (valueByte f.args 3).toNat (valueByte f.args 4).toNat (valueByte f.args 5).toNat) }.answer .accepted [])) := by
  refine ⟨fun hi hno => congrArg Host.Outcome.next (configure_untaken h hi (blankOrZeroed_eq_false.mpr hno)),
    fun hi hset hbad => congrArg Host.Outcome.next (configure_ruled h hi (blankOrZeroed_iff.mpr hset) ?_),
    fun hi hset hgood => congrArg Host.Outcome.next (configure_ruled h hi (blankOrZeroed_iff.mpr hset) ?_)⟩
  · rw [ruleConfigureMesh, hv0, argFlag_of_lt hbad]
  · rw [ruleConfigureMesh, hv0, argFlag_of_le hgood]
    rfl

theorem configureMode_range (hv0 : valueByte f.args 0 = v0) (h : SentItem f 8 i [v0, v1, v2, v3, v4, v5] s) (hi : i ≤ 7)
    (hbad : 1 < v0.toNat ∨ v0 = 0#8 ∧ i ≠ 0) : exec (.configureConverterMode f) s = .next (s.answer .range []) := by
  refine congrArg Host.Outcome.next (configure_ruled h hi rfl ?_)
  obtain hbad | ⟨rfl, hne⟩ := hbad
  · rw [ruleConfigureMode, hv0, argFlag_of_lt hbad]
  · rw [ruleConfigureMode, hv0, argFlag_zero]
    exact if_pos hne

theorem configureMode_sweep (hv0 : valueByte f.args 0 = 0#8) (h : SentItem f 8 0 [v0, v1, v2, v3, v4, v5] s) :
    exec (.configureConverterMode f) s = .next ({ s with mon := s.mon.setMode .sweep }.answer .accepted []) := by
  refine congrArg Host.Outcome.next (configure_ruled h (Nat.zero_le 7) rfl ?_)
  rw [ruleConfigureMode, hv0, argFlag_zero]
  exact if_neg (not_not.mpr rfl)

theorem configureMode_focus (hv0 : valueByte f.args 0 = 1#8) (h : SentItem f 8 i [v0, v1, v2, v3, v4, v5] s) (hi : i ≤ 7) :
    (¬Settable s → exec (.configureConverterMode f) s = .next (s.answer .state [])) ∧
    (Settable s → exec (.configureConverterMode f) s =
      .next ({ s with mon := s.mon.setMode (.focus (Fin.ofNat 8 i)) }.answer .accepted [])) := by
  refine ⟨fun hno => congrArg Host.Outcome.next (configure_ruled h hi rfl ?_),
    fun hset => congrArg Host.Outcome.next (configure_ruled h hi rfl ?_)⟩
  · rw [ruleConfigureMode, hv0, argFlag_one]
    exact if_neg (fun htrue => hno (blankOrZeroed_iff.mp htrue))
  · rw [ruleConfigureMode, hv0, argFlag_one]
    exact if_pos (blankOrZeroed_iff.mpr hset)

theorem configureScrub_spec (hv0 : valueByte f.args 0 = v0) (h : SentItem f 9 0 [v0, v1, v2, v3, v4, v5] s) :
    (1 < v0.toNat → exec (.configureScrubSetting f) s = .next (s.answer .range [])) ∧
    (v0.toNat ≤ 1 → exec (.configureScrubSetting f) s =
      .next ({ s with cab := { s.cab with scrubOn := decide (v0 = 1#8) } }.answer .accepted [])) := by
  refine ⟨fun hbad => congrArg Host.Outcome.next (configure_ruled h le_rfl rfl ?_),
    fun hgood => congrArg Host.Outcome.next (configure_ruled h le_rfl rfl ?_)⟩
  · rw [ruleConfigureScrub, hv0, argFlag_of_lt hbad]
  · rw [ruleConfigureScrub, hv0, argFlag_of_le hgood]
    rfl

end Items

/-- The new mode, and where a sweep after FOCUS goes on (R149; log entry 34). -/
theorem Monitor.setMode_sweep (m : Monitor) : m.setMode .sweep = { m with mode := .sweep, lastConv := (m.setMode .sweep).lastConv } ∧
    (m.mode = .sweep → (m.setMode .sweep).lastConv = m.lastConv) ∧
    ∀ c, m.mode = .focus c → (m.setMode .sweep).lastConv = some c := by
  refine ⟨rfl, fun h => ?_, fun c h => ?_⟩ <;> simp only [Monitor.setMode, h]

theorem Monitor.setMode_focus (m : Monitor) (c : Fin 8) : m.setMode (.focus c) = { m with mode := .focus c } := by
  unfold Monitor.setMode
  cases m.mode <;> rfl

/-- Settles O55: the judgement once for all rows, then item by item. -/
theorem configureItems : Obligations.ConfigureItems := by
  unfold Obligations.ConfigureItems
  intro f s i v0 v1 v2 v3 v4 v5 n hn item hsent
  have hargs : f.args = BitVec.ofNat 8 item :: BitVec.ofNat 8 i :: [v0, v1, v2, v3, v4, v5] := hsent.2.2.2.2.2
  have hv0 : valueByte f.args 0 = v0 := by rw [hargs]; rfl
  have hv1 : valueByte f.args 1 = v1 := by rw [hargs]; rfl
  have hv2 : valueByte f.args 2 = v2 := by rw [hargs]; rfl
  have hv3 : valueByte f.args 3 = v3 := by rw [hargs]; rfl
  have hv4 : valueByte f.args 4 = v4 := by rw [hargs]; rfl
  have hv5 : valueByte f.args 5 = v5 := by rw [hargs]; rfl
  have hword : argWord f.args 2 = v1 ++ v0 := by rw [hargs]; rfl
  have hcount : valueCount f.args = n := by rw [valueCount, hword, toNat_word, hn]
  have hperiod : (argWord f.args 3).toNat = v1.toNat + 256 * v2.toNat := by
    rw [show argWord f.args 3 = v2 ++ v1 by rw [hargs]; rfl, toNat_word]
  refine ⟨fun c own top hrow => ?_, ?_, ?_, ?_, ?_, ?_, ?_, ?_, ?_, ?_, ?_⟩
  · have judged {taken : State → Bool} {rule : Nat → State → Reply} (hown : 1 ≤ own ∧ own ≤ 10)
        (h : exec c s = .next (configure f own top taken rule s)) :
        (item = 0 ∨ 10 < item → exec c s = .next (s.answer .range [])) ∧
        (item = own → top < i → exec c s = .next (s.answer .range [])) := by
      rw [h]
      exact ⟨fun hitem => congrArg Host.Outcome.next (configure_unknown hsent hown hitem),
        fun heq hi => congrArg Host.Outcome.next (configure_index (heq ▸ hsent) hi)⟩
    simp only [List.mem_cons, List.not_mem_nil, or_false, Prod.mk.injEq] at hrow
    rcases hrow with ⟨rfl, rfl, rfl⟩ | ⟨rfl, rfl, rfl⟩ | ⟨rfl, rfl, rfl⟩ | ⟨rfl, rfl, rfl⟩ | ⟨rfl, rfl, rfl⟩ |
      ⟨rfl, rfl, rfl⟩ | ⟨rfl, rfl, rfl⟩ | ⟨rfl, rfl, rfl⟩ | ⟨rfl, rfl, rfl⟩ | ⟨rfl, rfl, rfl⟩ <;>
      exact judged (by decide) rfl
  · rintro rfl
    exact configurePab_spec hcount hsent
  · rintro rfl
    obtain ⟨huntaken, htaken⟩ := configureBackTiming_spec hsent
    refine ⟨huntaken, fun hi hset => ⟨s.back.timing.set i n,
      (s.back.retime (s.back.timing.set i n)).banks, ?_, fun r k => ⟨fun hopen => ?_, fun from' c hclosing hauto => ?_⟩,
      Timing.set_spec i n s.back.timing hi⟩⟩
    · rw [htaken hi hset, hcount]
      rfl
    · rw [retime_banks, retimeBank_of_open hopen]
    · rw [retime_banks, retimeBank_of_closing hclosing hauto]
  · rintro rfl rfl
    refine ⟨fun hno => congrArg Host.Outcome.next (configure_untaken hsent le_rfl (blankOrZeroed_eq_false.mpr hno)),
      fun hset => congrArg Host.Outcome.next (configure_ruled hsent le_rfl (blankOrZeroed_iff.mpr hset) ?_)⟩
    have hfit : clamp 0 255 n = min 255 n := by rw [clamp, Nat.zero_max]
    rw [ruleConfigurePagePolicy, hcount, hfit]
    rfl
  · rintro rfl rfl
    refine congrArg Host.Outcome.next (configure_ruled hsent le_rfl rfl ?_)
    rw [ruleConfigureRunCompare, hcount]
    rfl
  · rintro rfl rfl
    refine ⟨if v1 ++ v0 = 0#16 then 1#16 else v1 ++ v0, ?_, congrArg Host.Outcome.next (configure_ruled hsent le_rfl rfl ?_)⟩
    · rw [hn, ← toNat_word]
      split
      · next hzero =>
        rw [hzero]
        rfl
      · next hzero =>
        have : (v1 ++ v0).toNat ≠ 0 := fun h => hzero (BitVec.eq_of_toNat_eq h)
        omega
    · rw [ruleConfigureEntryLimit, hword]
      rfl
  · rintro rfl
    obtain ⟨huntaken, hrange, htaken⟩ := configureChannel_spec hv0 hsent
    refine ⟨huntaken, hrange, fun c hc hset hflag => ⟨_, htaken (by omega) hset hflag, rfl, ?_, fun j hj => ?_⟩⟩
    · have hix : Fin.ofNat 8 i = c := Fin.ext (by rw [Fin.val_ofNat]; omega)
      rw [hix, Monitor.onChannel_self, hv1, hv2, hv3]
      rfl
    · have hix : Fin.ofNat 8 i = c := Fin.ext (by rw [Fin.val_ofNat]; omega)
      rw [hix, Monitor.onChannel_of_ne _ hj]
  · rintro rfl
    obtain ⟨huntaken, hrange, htaken⟩ := configureMesh_spec hv0 hsent
    refine ⟨huntaken, hrange, fun c period hc hset hflag hfit => ⟨_, htaken (by omega) hset hflag, rfl, ?_, fun j hj => ?_⟩⟩
    · have hix : Fin.ofNat 2 i = c := Fin.ext (by rw [Fin.val_ofNat]; omega)
      rw [hix, Monitor.onMesh_self, hv3, hv4, hv5, hperiod, hfit]
      rfl
    · have hix : Fin.ofNat 2 i = c := Fin.ext (by rw [Fin.val_ofNat]; omega)
      rw [hix, Monitor.onMesh_of_ne _ hj]
  · rintro rfl c hc
    have hle : i ≤ 7 := by omega
    refine ⟨fun hbad => configureMode_range hv0 hsent hle (.inl hbad), fun hzero hne => configureMode_range hv0 hsent hle (.inr ⟨hzero, hne⟩),
      fun hzero hi => ?_, fun hone hno => ?_, fun hone hset => ?_⟩
    · subst hzero hi
      exact ⟨_, configureMode_sweep hv0 hsent, s.mon.setMode_sweep⟩
    · subst hone
      exact (configureMode_focus hv0 hsent hle).1 hno
    · subst hone
      have hix : Fin.ofNat 8 i = c := Fin.ext (by rw [Fin.val_ofNat]; omega)
      rw [(configureMode_focus hv0 hsent hle).2 hset, hix, Monitor.setMode_focus]
  · rintro rfl rfl
    exact configureScrub_spec hv0 hsent
  · rintro rfl rfl
    refine ⟨_, congrArg Host.Outcome.next (configure_ruled hsent le_rfl rfl rfl), fun j hj => ?_⟩
    rw [hword, BitVec.getLsbD_setWidth]
    simp [hj]

end Sys2Proof.Machine

/-! PROOFS. Map work that waits: held map reads, waiting merges, retire fills, and the taking of updates (MapWorkGoesOn,
UpdateIsTaken). -/

namespace Sys2Proof.Machine

/-! ## Update List entries -/

section Updates

variable {s : State} {k : MapLine}

theorem findUpdate_eq_none_iff : findUpdate s k = none ↔ ∀ v ∈ s.maps.updates, v.line ≠ k := by
  simp [findUpdate]

/-- An update's line read is offered: it enters from beat 0, or the update waits. -/
theorem offer_updateRead (s : State) (k : MapLine) : offer (.updateRead k) s =
    if mayEnter (.updateRead k) s = true then { s with
      maps := { s.maps with updates := s.maps.updates.map fun v =>
        if v.line = k then { v with state := .reading (some s.back.nextId) } else v }
      back := s.back.push false (mapBackLine s.seeds.pab k) .update 0#3 zeroLine 0#64 }
    else { s with back := s.back.await (.updateRead k) } := by
  rw [offer, beginWait_back]
  refine if_congr Iff.rfl ?_ rfl
  simp only [enter, enterUpdateRead, onUpdate, beq_iff_eq]
  rfl

/-- The state of one entry, set twice. -/
theorem map_state_state (l : List UpdateEntry) (k : MapLine) (x y : UpdateState) :
    (l.map fun v => if v.line = k then { v with state := x } else v).map
      (fun v => if v.line = k then { v with state := y } else v) =
    l.map fun v => if v.line = k then { v with state := y } else v := by
  rw [List.map_map]
  refine List.map_congr_left fun v _ => ?_
  by_cases hk : v.line = k <;> simp [hk]

theorem onUpdate_eq (g : UpdateEntry → UpdateEntry) (s : State) : onUpdate k g s = { s with
    maps := { s.maps with updates := s.maps.updates.map fun v => if v.line = k then g v else v } } := by
  simp only [onUpdate, State.onMaps, beq_iff_eq]

end Updates

/-! ## Map work that goes on -/

section Resume

variable {s : State}

/-- A held map-window read offers its line read from beat 0 once no update holds its line. -/
theorem resumeMapRead_spec {tag : Tag} {x : Slot} (hlive : live s = true) (hslots : SlotLaw s) (hx : findSlot s tag = some x)
    (hheld : x.phase = .mapReadHeld) :
    ((∃ v ∈ s.maps.updates, v.line = mapWindowLine x.txn.line) → resumeMapRead tag s = s) ∧
    ((∀ v ∈ s.maps.updates, v.line ≠ mapWindowLine x.txn.line) → x.region = some .map →
      (mayEnter (.front tag) s = true → resumeMapRead tag s = {
        s.moveSlot tag .map (.readOut (mapBackLine s.front.pabCopy (mapWindowLine x.txn.line)) s.back.nextId) with
          back := s.back.push false (mapBackLine s.front.pabCopy (mapWindowLine x.txn.line)) .front 0#3 zeroLine 0#64 }) ∧
      (mayEnter (.front tag) s = false → resumeMapRead tag s = {
        s.moveSlot tag .map (.readWait (mapBackLine s.front.pabCopy (mapWindowLine x.txn.line))) with
          back := s.back.await (.front tag) })) := by
  have htag : x.txn.tag = tag := tag_of_findSlot s hx
  refine ⟨fun hupdating => ?_, fun hfree hregion => ?_⟩
  · simp only [resumeMapRead, hx]
    refine if_neg fun h => ?_
    obtain ⟨v, hv, hline⟩ := hupdating
    exact findUpdate_eq_none_iff.mp h.2.2 v hv hline
  · have hserving : Serving x.txn .map s := serving_of_slotLaw hslots hx hregion nofun
    have hoffer : resumeMapRead tag s = offerRead tag (mapBackLine s.front.pabCopy (mapWindowLine x.txn.line)) s := by
      simp only [resumeMapRead, hx]
      exact if_pos ⟨hlive, hheld, findUpdate_eq_none_iff.mpr hfree⟩
    have hread := hserving.offerRead_eq (mapBackLine s.front.pabCopy (mapWindowLine x.txn.line))
    rw [htag] at hread
    rw [hoffer, hread]
    refine ⟨fun hmay => ?_, fun hmay => ?_⟩
    · rw [if_pos hmay, if_neg fun h => h.2 rfl]
    · rw [if_neg (by rw [hmay]; exact Bool.noConfusion)]

/-- A WAITING merge enters READING once no fill of its line is listed. -/
theorem releaseMerge_spec {k : MapLine} {u : UpdateEntry} (hlive : live s = true) (hu : findUpdate s k = some u)
    (hwaits : u.state = .waiting) :
    ((∃ f ∈ s.maps.fills, f.line = k) → releaseMerge k s = s) ∧
    ((∀ f ∈ s.maps.fills, f.line ≠ k) →
      (mayEnter (.updateRead k) s = true → releaseMerge k s = { s with
        maps := { s.maps with updates := s.maps.updates.map fun v =>
          if v.line = k then { v with state := .reading (some s.back.nextId) } else v }
        back := s.back.push false (mapBackLine s.seeds.pab k) .update 0#3 zeroLine 0#64 }) ∧
      (mayEnter (.updateRead k) s = false → releaseMerge k s = { s with
        maps := { s.maps with updates := s.maps.updates.map fun v =>
          if v.line = k then { v with state := .reading none } else v }
        back := s.back.await (.updateRead k) })) := by
  have hfills : (s.maps.fills.any fun x => x.line == k) = false ↔ ∀ f ∈ s.maps.fills, f.line ≠ k := by simp
  refine ⟨fun ⟨f, hf, hline⟩ => ?_, fun hnone => ?_⟩
  · simp only [releaseMerge, hu]
    exact if_neg fun h => hfills.mp h.2.2 f hf hline
  · have hoffer : releaseMerge k s =
        offer (.updateRead k) (onUpdate k (fun v => { v with state := .reading none }) s) := by
      simp only [releaseMerge, hu]
      exact if_pos ⟨hlive, hwaits, hfills.mpr hnone⟩
    have hmay : mayEnter (.updateRead k) (onUpdate k (fun v => { v with state := .reading none }) s) =
        mayEnter (.updateRead k) s := mayEnter_congr _ rfl rfl
    rw [hoffer, offer_updateRead, hmay, onUpdate_eq]
    refine ⟨fun hmay => ?_, fun hmay => ?_⟩
    · rw [if_pos hmay]
      dsimp only
      rw [map_state_state]
    · rw [if_neg (by rw [hmay]; exact Bool.noConfusion)]

/-- The room of a fill that leaves is given on. -/
theorem dropOldestFill_given {x : Fill} {rest : List Fill} (hfills : s.maps.fills = x :: rest) (hroom : RoomLaw s) :
    RoomGiven { s with maps := { s.maps with fills := rest }, back := s.back.admitted .fill } (dropOldestFill s) := by
  have htail : s.maps.fills.tail = rest := by rw [hfills]; rfl
  have hgiven := grantRoom_given s.maps.roomOrder ((endWait .fill s).onMaps fun m => { m with fills := m.fills.tail }) hroom
  simp only [State.onMaps, endWait, State.onBack, htail] at hgiven
  rw [dropOldestFill]
  simp only [State.onMaps, endWait, State.onBack, htail]
  exact hgiven

/-- The oldest fill: its next line enters or waits, and it leaves after its last line or without a key. -/
theorem writeFill_spec {x : Fill} {rest : List Fill} (hlive : live s = true) (hfills : s.maps.fills = x :: rest)
    (hroom : RoomLaw s) :
    (∀ key l sent, lineKey s x.dom = some key → l = keyBackLine s.seeds.pab x.bpn (BitVec.ofNat 6 x.next) →
      sent = (s.back.push true l .fill 0#3 (encipher key l zeroLine) 0#64).admitted .fill →
      (mayEnter .fill s = true → x.next < 63 → writeFill s = { s with
        maps := { s.maps with fills := { x with next := x.next + 1 } :: rest }, back := sent }) ∧
      (mayEnter .fill s = true → 63 ≤ x.next →
        RoomGiven { s with maps := { s.maps with fills := rest }, back := sent } (writeFill s)) ∧
      (mayEnter .fill s = false → writeFill s = { s with back := s.back.await .fill })) ∧
    (lineKey s x.dom = none →
      RoomGiven { s with maps := { s.maps with fills := rest }, back := s.back.admitted .fill } (writeFill s)) := by
  have htail : s.maps.fills.tail = rest := by rw [hfills]; rfl
  refine ⟨fun key l sent hkey hl hsent => ?_, fun hkey => ?_⟩
  · have hwrite : writeFill s = if mayEnter .fill s then sendFill x key s else beginWait .fill s := by
      simp only [writeFill, hfills, hlive, if_true, hkey]
    rw [hwrite]
    subst hl hsent
    refine ⟨fun hmay hnext => ?_, fun hmay hnext => ?_, fun hmay => ?_⟩
    · rw [if_pos hmay, sendFill, if_pos hnext]
      simp only [State.onMaps, endWait, State.onBack, enqueueWrite, enqueue, htail]
      rfl
    · rw [if_pos hmay, sendFill, if_neg (Nat.not_lt.mpr hnext)]
      exact dropOldestFill_given (s := enqueueWrite _ .fill _ s) hfills hroom
    · rw [hmay, if_neg Bool.false_ne_true, beginWait_back]
  · have hdrop : writeFill s = dropOldestFill s := by simp only [writeFill, hfills, hlive, if_true, hkey]
    rw [hdrop]
    exact dropOldestFill_given hfills hroom

end Resume

/-- Settles O11: the three rows, each by its one question. -/
theorem mapWorkGoesOn : Obligations.MapWorkGoesOn := by
  unfold Obligations.MapWorkGoesOn
  refine ⟨fun tag s x hlive hslots hx hheld => ?_, fun k s u hlive hu hwaits => ?_, fun s x rest hlive hfills hroom => ?_⟩
  · obtain ⟨hupdating, hfree⟩ := resumeMapRead_spec hlive hslots hx hheld
    exact ⟨fun h => congrArg Host.Outcome.next (hupdating h), fun h hr =>
      ⟨fun hmay => congrArg Host.Outcome.next ((hfree h hr).1 hmay),
        fun hmay => congrArg Host.Outcome.next ((hfree h hr).2 hmay)⟩⟩
  · obtain ⟨hfilling, hfree⟩ := releaseMerge_spec hlive hu hwaits
    exact ⟨fun h => congrArg Host.Outcome.next (hfilling h), fun h =>
      ⟨fun hmay => congrArg Host.Outcome.next ((hfree h).1 hmay),
        fun hmay => congrArg Host.Outcome.next ((hfree h).2 hmay)⟩⟩
  · obtain ⟨hkeyed, hkeyless⟩ := writeFill_spec hlive hfills hroom
    refine ⟨fun key l sent hkey hl hsent => ?_, fun hkey => ⟨_, rfl, hkeyless hkey⟩⟩
    obtain ⟨hnext, hlast, hwaits⟩ := hkeyed key l sent hkey hl hsent
    exact ⟨fun hmay hlt => congrArg Host.Outcome.next (hnext hmay hlt), fun hmay hle => ⟨_, rfl, hlast hmay hle⟩,
      fun hmay => congrArg Host.Outcome.next (hwaits hmay)⟩

/-! ## The taking of updates (R34) -/

theorem picked_eq {pick : UpdatePick} {before after : List UpdateRequest} {r : UpdateRequest}
    (hr : pickNames pick r = true) (hbefore : ∀ q ∈ before, pickNames pick q = false) :
    MapUnit.picked pick (before ++ r :: after) = some (before, r) := by
  induction before with
  | nil => exact if_pos hr
  | cons q before ih =>
    have hq := hbefore q (.head _)
    have hrest := ih fun q' hq' => hbefore q' (.tail _ hq')
    rw [List.cons_append, MapUnit.picked, hq, if_neg Bool.false_ne_true, hrest]
    rfl

/-- Whether a request may be taken, the free lines asked for before it listed once each. -/
theorem mayTake_iff {m : MapUnit} {before : List UpdateRequest} {r : UpdateRequest} {earlier : List MapLine}
    (hnodup : earlier.Nodup)
    (hearlier : ∀ k, k ∈ earlier ↔ k ≠ r.line ∧ (∃ q ∈ before, q.line = k) ∧ ∀ v ∈ m.updates, v.line ≠ k) :
    m.mayTake before r = true ↔ (∀ v ∈ m.updates, v.line ≠ r.line) ∧
      ((∀ q ∈ before, q.line ≠ r.line) ∨ r ∈ m.together) ∧ m.updates.length + earlier.length < 8 := by
  have hfree (k : MapLine) : (!(m.updates.any fun u => u.line == k)) = true ↔ ∀ v ∈ m.updates, v.line ≠ k := by simp
  have hlength : (((before.map UpdateRequest.line).filter fun k =>
      (!(m.updates.any fun u => u.line == k)) && k != r.line).dedup).length = earlier.length := by
    refine List.Perm.length_eq ((List.perm_ext_iff_of_nodup (List.nodup_dedup _) hnodup).mpr fun k => ?_)
    rw [List.mem_dedup, List.mem_filter, List.mem_map, Bool.and_eq_true, hfree, bne_iff_ne, hearlier]
    tauto
  have hturn : m.inTurn before r = true ↔ (∀ q ∈ before, q.line ≠ r.line) ∨ r ∈ m.together := by
    simp [MapUnit.inTurn]
  simp only [MapUnit.mayTake, Bool.and_eq_true, hfree, hturn, hlength, decide_eq_true_eq, Limit.updates, and_assoc]

theorem without_eq {m : MapUnit} {before after : List UpdateRequest} {r : UpdateRequest}
    (hrequests : m.requests = before ++ r :: after) (hbefore : r ∉ before) : m.without r = { m with
      requests := before ++ after
      together := if m.updates.length < 7 then m.together.filter (fun q => q.line ≠ r.line) else [] } := by
  have hfilter : (m.together.filter fun q => q.line != r.line) = m.together.filter (fun q => q.line ≠ r.line) := by
    refine List.filter_congr fun q _ => ?_
    by_cases h : q.line = r.line <;> simp [h]
  rw [MapUnit.without, hrequests, List.erase_append_right _ hbefore, List.erase_cons_head, hfilter]
  simp only [Limit.updates, show m.updates.length + 1 < 8 ↔ m.updates.length < 7 by omega]

theorem markStale_eq (k : MapLine) (s : State) :
    markStale k s = { s with xlat := { s.xlat with walks := s.xlat.walks.map (Walk.staleOn k) } } := by
  have hwalk : (fun w : Walk => if mapLineOf w.dom w.fpn == k then { w with stale := true } else w) = Walk.staleOn k := by
    funext w
    simp only [Walk.staleOn, beq_iff_eq]
  rw [markStale, hwalk]
  rfl

/-- An entry that is new to the list, with its line read offered. -/
theorem offer_newUpdate {s : State} {k : MapLine} {o : UpdateOrigin} {l : List UpdateEntry}
    (hnew : ∀ v ∈ l, v.line ≠ k) (hl : s.maps.updates = l ++ [newUpdate k o (.reading none)]) :
    offer (.updateRead k) s = if mayEnter (.updateRead k) s = true then { s with
      maps := { s.maps with updates := l ++ [newUpdate k o (.reading (some s.back.nextId))] }
      back := s.back.push false (mapBackLine s.seeds.pab k) .update 0#3 zeroLine 0#64 }
    else { s with back := s.back.await (.updateRead k) } := by
  have hmap : (s.maps.updates.map fun v => if v.line = k then { v with state := .reading (some s.back.nextId) } else v) =
      l ++ [newUpdate k o (.reading (some s.back.nextId))] := by
    rw [hl, List.map_append]
    congr 1
    · refine (List.map_congr_left fun v hv => ?_).trans (List.map_id l)
      exact if_neg (hnew v hv)
    · simp [newUpdate]
  rw [offer_updateRead, hmap]

section Taken

variable {s : State} {before after : List UpdateRequest}

/-- The Map Unit once a request has been taken out of the requests and entered in the Update List. -/
def MapUnit.taken (r : UpdateRequest) (rest : List UpdateRequest) (o : UpdateOrigin) (st : UpdateState) (m : MapUnit) :
    MapUnit :=
  { m with
    requests := rest
    together := if m.updates.length < 7 then m.together.filter (fun q => q.line ≠ r.line) else []
    updates := m.updates ++ [newUpdate r.line o st] }

/-- What taking a request makes of the Map Unit and of the walks on its line. -/
def State.updateTaken (r : UpdateRequest) (rest : List UpdateRequest) (o : UpdateOrigin) (st : UpdateState) (s : State) :
    State :=
  { s with
    maps := s.maps.taken r rest o st
    xlat := { s.xlat with walks := s.xlat.walks.map (Walk.staleOn r.line) } }

/-- The line read of an entry just taken enters or waits. -/
theorem offer_updateTaken {r : UpdateRequest} {o : UpdateOrigin} (hfree : ∀ v ∈ s.maps.updates, v.line ≠ r.line) :
    offer (.updateRead r.line) (s.updateTaken r (before ++ after) o (.reading none)) =
      if mayEnter (.updateRead r.line) s = true then
        { s.updateTaken r (before ++ after) o (.reading (some s.back.nextId)) with
          back := s.back.push false (mapBackLine s.seeds.pab r.line) .update 0#3 zeroLine 0#64 }
      else { s.updateTaken r (before ++ after) o (.reading none) with back := s.back.await (.updateRead r.line) } := by
  have hmay : mayEnter (.updateRead r.line) (s.updateTaken r (before ++ after) o (.reading none)) =
      mayEnter (.updateRead r.line) s := mayEnter_congr _ rfl rfl
  rw [offer_newUpdate (s := s.updateTaken r (before ++ after) o (.reading none)) hfree rfl, hmay]
  rfl

variable {r : UpdateRequest} (hrequests : s.maps.requests = before ++ r :: after) (hbefore : r ∉ before)
include hrequests hbefore

theorem takeUpdate_part {p : PartUpdate} (hr : r = .part p) :
    takeUpdate r s = offer (.updateRead r.line) (s.updateTaken r (before ++ after) (.part p) (.reading none)) := by
  have hwithout := without_eq hrequests hbefore
  subst hr
  simp only [takeUpdate, markStale_eq, State.onMaps, hwithout]
  rfl

theorem takeUpdate_kernel {tag : Tag} {k : MapLine} (hr : r = .kernel tag k) :
    ((∃ f ∈ s.maps.fills, f.line = k) → takeUpdate r s =
      (setPhase tag .updateListed s).updateTaken r (before ++ after) (.kernel tag) .waiting) ∧
    ((∀ f ∈ s.maps.fills, f.line ≠ k) → takeUpdate r s = offer (.updateRead r.line)
      ((setPhase tag .updateListed s).updateTaken r (before ++ after) (.kernel tag) (.reading none))) := by
  have hwithout := without_eq hrequests hbefore
  subst hr
  refine ⟨fun hfill => ?_, fun hnone => ?_⟩
  · have hfilling : (s.maps.fills.any fun x => x.line == k) = true := by simpa using hfill
    simp only [takeUpdate, UpdateRequest.line, hfilling, if_true, markStale_eq, State.onMaps, hwithout]
    rfl
  · have hfilling : (s.maps.fills.any fun x => x.line == k) = false := by simpa using hnone
    simp only [takeUpdate, UpdateRequest.line, hfilling, Bool.false_eq_true, if_false, markStale_eq, State.onMaps, hwithout]
    rfl

end Taken

/-- Settles O12: the request picked, its turn and its room, and the entry it makes. -/
theorem updateIsTaken : Obligations.UpdateIsTaken := by
  unfold Obligations.UpdateIsTaken
  intro s r before after pick earlier hlive hrequests hpick hothers hnodup hearlier
  have hnames : pickNames pick r = true := by
    subst hpick
    cases r with
    | kernel tag k => exact beq_self_eq_true tag
    | part p => rfl
  have hno : ∀ q ∈ before, pickNames pick q = false := by
    intro q hq
    have hne := hothers q hq
    cases q with
    | kernel tag k =>
      cases pick with
      | kernel t => exact beq_eq_false_iff_ne.mpr fun h => hne (congrArg UpdatePick.kernel h)
      | part => rfl
    | part p =>
      cases pick with
      | kernel t => rfl
      | part => exact absurd rfl hne
  have hbefore : r ∉ before := fun h => Bool.noConfusion ((hno r h).symm.trans hnames)
  have hpicked : MapUnit.picked pick s.maps.requests = some (before, r) := by rw [hrequests, picked_eq hnames hno]
  have hmay := mayTake_iff hnodup hearlier
  have htaken : s.maps.mayTake before r = true → exec (.updateTaken pick) s = .next (takeUpdate r s) := by
    intro h
    refine congrArg Host.Outcome.next ?_
    simp only [takePicked, hpicked]
    exact if_pos ⟨hlive, h⟩
  refine ⟨fun hblocked => congrArg Host.Outcome.next ?_, fun hroom hfree hturn base left entry hbase hleft hentry => ?_⟩
  · simp only [takePicked, hpicked]
    refine if_neg fun h => ?_
    obtain ⟨hfree, hturn, hroom⟩ := hmay.mp h.2
    obtain hfull | ⟨v, hv, hline⟩ | ⟨⟨q, hq, hline⟩, hapart⟩ := hblocked
    · exact absurd hroom (Nat.not_lt.mpr hfull)
    · exact hfree v hv hline
    · exact hturn.elim (fun h => h q hq hline) hapart
  · rw [htaken (hmay.mpr ⟨hfree, hturn, hroom⟩)]
    subst hleft hentry hbase
    cases r with
    | part p =>
      refine ⟨nofun, fun _ => ?_⟩
      rw [takeUpdate_part hrequests hbefore rfl, offer_updateTaken hfree]
      exact ⟨fun hmay => by rw [if_pos hmay]; rfl, fun hmay => by rw [hmay, if_neg Bool.false_ne_true]; rfl⟩
    | kernel tag k =>
      obtain ⟨hfilling, hread⟩ := takeUpdate_kernel hrequests hbefore rfl
      have hmay : mayEnter (.updateRead (UpdateRequest.kernel tag k).line) (setPhase tag .updateListed s) =
          mayEnter (.updateRead (UpdateRequest.kernel tag k).line) s := mayEnter_congr _ rfl rfl
      refine ⟨fun tag' k' hr hfill => ?_, fun h => ?_⟩
      · obtain ⟨rfl, rfl⟩ := UpdateRequest.kernel.inj hr
        rw [hfilling hfill]
        rfl
      · have hnone : ∀ f ∈ s.maps.fills, f.line ≠ k := h.resolve_left nofun
        rw [hread hnone, offer_updateTaken (s := setPhase tag .updateListed s) hfree]
        refine ⟨fun h => ?_, fun h => ?_⟩
        · rw [if_pos (hmay.trans h)]
          rfl
        · rw [if_neg fun hyes => Bool.noConfusion ((hmay.trans h).symm.trans hyes)]
          rfl

end Sys2Proof.Machine

/-! PROOFS. The Entry Unit: what an offered request, a refused component write, an abandonment and a finalisation make of the
state, and the operations that begin (FinalisationBegins, LiveFillAndAbandonment). -/

namespace Sys2Proof.Machine

/-! ## Operations in progress -/

theorem raise_eq {s : State} (hlive : live s = true) (g : Flag) :
    raise g s = { s with ev := { s.ev with flags := s.ev.flags ||| g.mark } } :=
  if_pos hlive

section Operations

variable {s : State} {y : Slot} {c : CompOp}

/-- A component write that is dropped is refused and its operation ends. -/
theorem dropComponent_dropped (hslots : SlotLaw s)
    (hregion : ∀ y, findSlot s c.tag = some y → y.region = some .key) : Dropped c s (dropComponent c s) := by
  intro y hy
  rw [dropComponent, refuse_of_slotLaw hslots hy (hregion y hy)]
  rfl

/-- The Entry Unit's request for a component write past its part update enters, or waits. -/
theorem offerEntry_offers (hslots : SlotLaw s) (hy : findSlot s c.tag = some y) (hr : y.region = some .key)
    (hfirst : c.stage ≠ .firstUpdate) (hcombine : c.stage ≠ .combineUpdate) :
    EntryOffers c s (offer .entry (setWork (some (.component c)) s)) := by
  have hmay : mayEnter .entry (setWork (some (.component c)) s) = mayEnter .entry s := mayEnter_congr _ rfl rfl
  unfold EntryOffers
  dsimp only
  rw [offer, hmay]
  split
  · exact enterEntry_enters (s := setWork (some (.component c)) s) hslots rfl hy hr hfirst hcombine
  · exact beginWait_back _ _

theorem advanceAbandon_next (rest : List PartUpdate) (s : State) : AbandonNext rest s (advanceAbandon rest s) := by
  cases rest <;> rfl

theorem partUpdate_eq (d : DomId) (f : Fpn) (bpn : Bpn) (expect : List Lifecycle) (life : Lifecycle)
    (cust : Option Custodian) : partUpdate d f bpn expect life cust = OneChange d f bpn expect life cust := rfl

end Operations

/-! ## Finalisations -/

theorem otherCustodian_eq_iff (x c : Custodian) : otherCustodian x = c ↔ x ≠ c := by
  cases x <;> cases c <;> decide

/-- The finalisation affects exactly the entries it has an action for. -/
theorem finAction_eq_none {x : Option Custodian} {e : EntryRec} : finAction x e = none ↔ ¬FinAffects x e := by
  cases x with
  | none => cases hphase : e.phase <;> simp [finAction, FinAffects, hphase]
  | some c => cases hphase : e.phase <;> simp [finAction, FinAffects, hphase, otherCustodian_eq_iff]

/-- The lines of a page that its first component has left open, in order (R110). -/
def openLines (e : EntryRec) : List PageLine :=
  (List.finRange 64).filterMap fun i => if e.firstSet.getLsbD i.val then none else some (BitVec.ofNat 6 i.val)

theorem mem_openLines {e : EntryRec} {l : PageLine} : l ∈ openLines e ↔ e.firstSet.getLsbD l.toNat = false := by
  simp only [openLines, List.mem_filterMap, List.mem_finRange, true_and, Option.ite_none_left_eq_some, Bool.not_eq_true,
    Option.some.injEq]
  constructor
  · rintro ⟨i, hbit, rfl⟩
    rwa [BitVec.toNat_ofNat, Nat.mod_eq_of_lt i.isLt]
  · exact fun hbit => ⟨⟨l.toNat, l.isLt⟩, hbit, BitVec.ofNat_toNat 6 l |>.trans (BitVec.setWidth_eq l)⟩

theorem openLines_sorted (e : EntryRec) : (openLines e).Pairwise fun a b => a.toNat < b.toNat := by
  refine List.Pairwise.filterMap _ (R := fun i j : Fin 64 => i < j) (fun i j hlt a ha b hb => ?_) (List.pairwise_lt_finRange 64)
  simp only [Option.ite_none_left_eq_some, Option.some.injEq] at ha hb
  obtain ⟨-, rfl⟩ := ha
  obtain ⟨-, rfl⟩ := hb
  rwa [BitVec.toNat_ofNat, BitVec.toNat_ofNat, Nat.mod_eq_of_lt i.isLt, Nat.mod_eq_of_lt j.isLt]

theorem openLines_eq_nil {e : EntryRec} : openLines e = [] ↔ e.firstSet = allMarks := by
  rw [List.eq_nil_iff_forall_not_mem]
  simp only [mem_openLines, Bool.not_eq_false]
  constructor
  · intro h
    refine BitVec.eq_of_getLsbD_eq fun i hi => ?_
    have hbit := h (BitVec.ofNat 6 i)
    rw [BitVec.toNat_ofNat, Nat.mod_eq_of_lt hi] at hbit
    rw [hbit, allMarks, BitVec.getLsbD_allOnes, decide_eq_true hi]
  · intro h l
    rw [h, allMarks, BitVec.getLsbD_allOnes, decide_eq_true_eq]
    exact l.isLt

/-- The action for an entry in SECOND (R110, R111). -/
theorem finAction_second {x : Option Custodian} {e : EntryRec} {st : FinStage} (hphase : e.phase = .second)
    (h : finAction x e = some st) :
    st = if e.combinedSet = e.firstSet then .filling (openLines e) [] else .retire := by
  cases x with
  | none =>
    simp only [finAction, hphase, Option.some.injEq] at h
    exact h.symm
  | some c =>
    simp only [finAction, hphase, Option.ite_none_right_eq_some, Option.some.injEq] at h
    exact h.2.symm

theorem finAction_first {x : Option Custodian} {e : EntryRec} {st : FinStage} (hphase : e.phase = .first)
    (h : finAction x e = some st) : st = .half := by
  cases x with
  | none =>
    simp only [finAction, hphase, Option.some.injEq] at h
    exact h.symm
  | some c =>
    simp only [finAction, hphase, Option.ite_none_right_eq_some, Option.some.injEq] at h
    exact h.2.symm

theorem finAction_half {x : Option Custodian} {e : EntryRec} {st : FinStage} (hphase : e.phase = .half)
    (h : finAction x e = some st) : st = .keepHalf := by
  cases x with
  | none =>
    simp only [finAction, hphase, Option.some.injEq] at h
    exact h.symm
  | some c =>
    simp only [finAction, hphase, reduceCtorEq] at h

/-- An affected entry has the turn of its phase. -/
theorem beginEntry_turn {x : Option Custodian} {e : EntryRec} {st : FinStage} (rest : List (DomId × Fpn)) (s : State)
    (h : finAction x e = some st) : FinTurn x e rest s (beginEntry x e st rest s) := by
  unfold FinTurn
  dsimp only
  cases hphase : e.phase with
  | first =>
    rw [finAction_first hphase h]
    simp only [beginEntry, onEntryRec_list]
    rfl
  | half =>
    rw [finAction_half hphase h]
    rfl
  | second =>
    rw [finAction_second hphase h]
    refine ⟨fun hincomplete => ?_, fun hcomplete hall => ?_, fun hcomplete hsome => ?_⟩
    · rw [if_neg hincomplete]
      rfl
    · rw [if_pos hcomplete, openLines_eq_nil.mpr hall]
      rfl
    · refine ⟨openLines e, openLines_sorted e, fun l => mem_openLines, ?_⟩
      rw [if_pos hcomplete]
      cases hlines : openLines e with
      | nil => exact absurd (openLines_eq_nil.mp hlines) hsome
      | cons l left => exact beginWait_back _ _

/-- A finalisation goes on with the first page that is still listed and affected, or ends. -/
theorem advanceFin_next {s : State} (hlive : live s = true) (x : Option Custodian) (pages : List (DomId × Fpn)) :
    FinNext x pages s (advanceFin x pages s) := by
  induction pages with
  | nil =>
    refine ⟨fun _ => raise_eq (s := setWork none s) hlive .windowClosed, fun before p rest e hpages => ?_⟩
    exact absurd hpages (by simp)
  | cons q pages ih =>
    obtain ⟨d, f⟩ := q
    obtain ⟨hend, hturn⟩ := ih
    have hskip (hq : ∀ e, findEntry s d f = some e → ¬FinAffects x e) :
        advanceFin x ((d, f) :: pages) s = advanceFin x pages s := by
      cases hfind : findEntry s d f with
      | none => simp only [advanceFin, hfind]
      | some e => simp only [advanceFin, hfind, finAction_eq_none.mpr (hq e hfind)]
    refine ⟨fun hnone => ?_, fun before p rest e hpages hbefore he haffects => ?_⟩
    · rw [hskip fun e => hnone (d, f) (.head _) e]
      exact hend fun p hp => hnone p (.tail _ hp)
    · cases before with
      | nil =>
        obtain ⟨rfl, rfl⟩ := List.cons.inj hpages
        obtain ⟨st, hst⟩ := Option.ne_none_iff_exists'.mp fun h => finAction_eq_none.mp h haffects
        simp only [advanceFin, he, hst]
        exact beginEntry_turn _ s hst
      | cons q before =>
        obtain ⟨rfl, htail⟩ := List.cons.inj hpages
        rw [hskip fun e => hbefore (d, f) (.head _) e]
        exact hturn before p rest e htail (fun q hq => hbefore q (.tail _ hq)) he haffects

/-- Settles O24: the operation taken, and the walk over the entries listed. -/
theorem finalisationBegins : Obligations.FinalisationBegins := by
  unfold Obligations.FinalisationBegins
  intro x c op s rest hwhich hpulse hlive hwork hwaiting
  have hnext : nextOp s = some op := by rw [nextOp, if_pos ⟨hlive, hwork⟩, hwaiting]; rfl
  have htaken : takeOp s = { s with entry := { s.entry with waiting := rest } } := by
    simp only [takeOp, State.onEntry, hwaiting, List.tail_cons]
  have hexec : exec c s = .next (beginFin x (takeOp s)) := by
    cases x with
    | none =>
      obtain ⟨rfl, rfl⟩ := hwhich
      show Host.Outcome.next (nextDeferred (afterPulse s)) = _
      simp only [afterPulse_of_taken hpulse, nextDeferred, hnext]
    | some x =>
      obtain ⟨rfl, rfl⟩ := hwhich
      show Host.Outcome.next (nextFinalisation (afterPulse s)) = _
      simp only [afterPulse_of_taken hpulse, nextFinalisation, hnext]
  refine ⟨_, hexec, ?_⟩
  rw [htaken]
  exact advanceFin_next (s := { s with entry := { s.entry with waiting := rest } }) hlive x _

/-! ## LIVE zero fills and abandonment -/

/-- The Entry List emptied, with the first update to RETIRED offered and the others to follow. -/
theorem abandonList_eq {s : State} (hlive : live s = true) :
    (s.entry.list = [] → abandonList s = { s with entry := { s.entry with list := [], work := none } }) ∧
    ∀ e more, s.entry.list = e :: more → abandonList s = { s with
      entry := { s.entry with list := [], work := some (.abandoning (more.map abandonUpdate)) }
      maps := { s.maps with requests := s.maps.requests ++ [.part (abandonUpdate e)] }
      ev := { s.ev with flags := s.ev.flags ||| Flag.entryAbandoned.mark } } := by
  refine ⟨fun hlist => ?_, fun e more hlist => ?_⟩ <;> rw [abandonList, hlist]
  · rfl
  · exact congrArg (fun u => offerPart (abandonUpdate e) (setWork (some (.abandoning (more.map abandonUpdate))) u))
      (raise_eq (s := s.onEntry fun u => { u with list := [] }) hlive .entryAbandoned)

/-- Settles O25: the fill by what is left of it, and the abandonment by the entries listed. -/
theorem liveFillAndAbandonment : Obligations.LiveFillAndAbandonment := by
  unfold Obligations.LiveFillAndAbandonment
  refine ⟨fun s x d f left out rest e hlive hwork he => ⟨?_, fun hleft => ?_⟩,
    fun s rest hpulse hlive hwork hwaiting => ?_⟩
  · rintro rfl rfl
    have hkeys : e.dom = d ∧ e.fpn = f := by simpa using List.find?_some he
    refine congrArg Host.Outcome.next ?_
    simp only [completeLiveFill, hwork, he, hlive, if_true]
    obtain ⟨rfl, rfl⟩ := hkeys
    rfl
  · refine congrArg Host.Outcome.next ?_
    unfold completeLiveFill
    split
    · next hdone =>
      rw [hwork] at hdone
      cases hdone
      simp at hleft
    · rfl
  · have hnext : nextOp s = some .abandon := by rw [nextOp, if_pos ⟨hlive, hwork⟩, hwaiting]; rfl
    have htaken : takeOp s = { s with entry := { s.entry with waiting := rest } } := by
      simp only [takeOp, State.onEntry, hwaiting, List.tail_cons]
    have hexec : exec .abandonment s = .next (abandonList { s with entry := { s.entry with waiting := rest } }) := by
      show Host.Outcome.next (nextAbandonment (afterPulse s)) = _
      simp only [afterPulse_of_taken hpulse, nextAbandonment, hnext, htaken]
    obtain ⟨hempty, hlisted⟩ := abandonList_eq (s := { s with entry := { s.entry with waiting := rest } }) hlive
    refine ⟨fun hlist => ?_, fun e more hlist => ?_⟩
    · rw [hexec, hempty hlist, ← hlist, ← hwork]
    · rw [hexec, hlisted e more hlist]
      rfl

end Sys2Proof.Machine

/-! PROOFS. Component writes: the judgement at their taking, what one that passes begins, and the combining read's burst
(ComponentRefused, ComponentBegins, CombiningBurst). -/

namespace Sys2Proof.Machine

/-! ## The judgement (R103, R104) -/

section Judgement

variable {u : EntryUnit} {x : Custodian}

theorem openCustodian_of_soleOpen (h : SoleOpen x u) : u.openCustodian = .ok x := by
  obtain ⟨hopen, hother⟩ := h
  cases x with
  | a =>
    have hA : u.windowA.state = .opened := hopen
    have hB : u.windowB.state ≠ .opened := hother
    simp [EntryUnit.openCustodian, hA]
  | b =>
    have hB : u.windowB.state = .opened := hopen
    have hA : u.windowA.state ≠ .opened := hother
    simp [EntryUnit.openCustodian, hB]

theorem openCustodian_of_both (hA : u.windowA.state = .opened) (hB : u.windowB.state = .opened) :
    u.openCustodian = .error .ambiguous := by
  simp only [EntryUnit.openCustodian, hA, hB]

theorem openCustodian_of_neither (hA : u.windowA.state ≠ .opened) (hB : u.windowB.state ≠ .opened) :
    u.openCustodian = .error .noWindow := by
  simp [EntryUnit.openCustodian, hA, hB]

end Judgement

section Judged

variable {u : EntryUnit} {t : Txn} {life : Lifecycle} {x : Custodian}

/-- With the domain, the one OPEN window and all bytes enabled, the page's entry judges. -/
theorem judgeComponent_page (hdomain : u.domain = some t.dom) (hopen : SoleOpen x u) (hall : t.enables = allMarks) :
    (∀ r, judgePhase (u.list.find? fun e => e.dom == t.dom && e.fpn == keyFpn t.line) life u.list.length x
        (keyPageIndex t.line) = .error r → judgeComponent u t life = .error r) ∧
    ∀ a, judgePhase (u.list.find? fun e => e.dom == t.dom && e.fpn == keyFpn t.line) life u.list.length x
        (keyPageIndex t.line) = .ok a → judgeComponent u t life = .ok (x, a) := by
  refine ⟨fun r h => ?_, fun a h => ?_⟩ <;>
    simp only [judgeComponent, hdomain, ne_eq, not_true_eq_false, if_false, openCustodian_of_soleOpen hopen, hall, h]

/-- The judgement answers the reason of the first step that fails. -/
theorem judgeComponent_error {r : Reason} (h : ComponentRefusal u t life r) : judgeComponent u t life = .error r := by
  obtain ⟨hdomain, rfl⟩ | ⟨hdomain, ⟨hA, hB, rfl⟩ | ⟨hA, hB, rfl⟩ | ⟨x, hopen, hbytes | ⟨hall, hpage⟩⟩⟩ := h
  · rw [judgeComponent, if_pos hdomain]
  · simp only [judgeComponent, hdomain, ne_eq, not_true_eq_false, if_false, openCustodian_of_neither hA hB]
  · simp only [judgeComponent, hdomain, ne_eq, not_true_eq_false, if_false, openCustodian_of_both hA hB]
  · obtain ⟨hbytes, rfl⟩ := hbytes
    simp only [judgeComponent, hdomain, ne_eq, not_true_eq_false, if_false, openCustodian_of_soleOpen hopen, hbytes,
      not_false_eq_true, if_true]
  · refine (judgeComponent_page hdomain hopen hall).1 r ?_
    cases hfind : u.list.find? fun e => e.dom == t.dom && e.fpn == keyFpn t.line with
    | none =>
      simp only [hfind] at hpage
      obtain ⟨hlife, rfl⟩ | ⟨hlife, hfull, rfl⟩ := hpage
      · simp only [judgePhase, if_neg hlife]
      · simp only [judgePhase, if_pos hlife]
        exact if_neg (Nat.not_lt.mpr hfull)
    | some e =>
      simp only [hfind] at hpage
      cases hphase : e.phase with
      | first =>
        simp only [hphase] at hpage
        obtain ⟨hwho, rfl⟩ := hpage
        simp only [judgePhase, hphase, if_neg hwho]
      | half =>
        simp only [hphase] at hpage
        obtain ⟨hwho, rfl⟩ | ⟨hwho, hbit, rfl⟩ := hpage
        · simp only [judgePhase, hphase, if_pos hwho]
        · simp only [judgePhase, hphase, if_neg hwho, hbit, Bool.false_eq_true, if_false]
      | second =>
        simp only [hphase] at hpage
        obtain ⟨hwho, rfl⟩ | ⟨hwho, hbits, rfl⟩ := hpage
        · simp only [judgePhase, hphase, if_pos hwho]
        · simp only [judgePhase, hphase, if_neg hwho]
          obtain hbit | hbit := hbits <;> simp [hbit]

end Judged

/-! ## The taking of a component write -/

section Taking

variable {s : State} {tag : Tag} {bpn : Bpn} {life : Lifecycle} {rest : List EntryOp} {y : Slot}

theorem takeOp_eq {op : EntryOp} (hwaiting : s.entry.waiting = op :: rest) :
    takeOp s = { s with entry := { s.entry with waiting := rest } } := by
  simp only [takeOp, State.onEntry, hwaiting, List.tail_cons]

variable (hpulse : PulseTaken s) (hlive : live s = true) (hwork : s.entry.work = none)
  (hwaiting : s.entry.waiting = .component tag bpn life :: rest) (hy : findSlot s tag = some y)
include hpulse hlive hwork hwaiting hy

theorem exec_componentWrite_error {r : Reason} (h : judgeComponent s.entry y.txn life = .error r) :
    exec .componentWrite s = .next (refuse tag .denied r { s with entry := { s.entry with waiting := rest } }) := by
  have hnext : nextOp s = some (.component tag bpn life) := by rw [nextOp, if_pos ⟨hlive, hwork⟩, hwaiting]; rfl
  show Host.Outcome.next (nextComponent (afterPulse s)) = _
  simp only [afterPulse_of_taken hpulse, nextComponent, hnext, takeComponent, hy, h, takeOp_eq hwaiting]

theorem exec_componentWrite_ok {x : Custodian} {a : CompAction} (h : judgeComponent s.entry y.txn life = .ok (x, a)) :
    exec .componentWrite s =
      .next (beginComponent tag y.txn bpn x a { s with entry := { s.entry with waiting := rest } }) := by
  have hnext : nextOp s = some (.component tag bpn life) := by rw [nextOp, if_pos ⟨hlive, hwork⟩, hwaiting]; rfl
  show Host.Outcome.next (nextComponent (afterPulse s)) = _
  simp only [afterPulse_of_taken hpulse, nextComponent, hnext, takeComponent, hy, h, takeOp_eq hwaiting]

end Taking

/-- Settles O21: the judgement's first failing step, and the refusal. -/
theorem componentRefused : Obligations.ComponentRefused := by
  unfold Obligations.ComponentRefused
  intro s tag bpn life rest y hpulse hlive hslots hwork hwaiting hy hr r h
  rw [exec_componentWrite_error hpulse hlive hwork hwaiting hy (judgeComponent_error h),
    refuse_of_slotLaw (s := { s with entry := { s.entry with waiting := rest } }) hslots hy hr]

/-! ## What a component write begins -/

section Begins

variable {s : State} {tag : Tag} {t : Txn} {bpn : Bpn} {x : Custodian}

/-- The operation of a component write on a listed page. -/
def compOp (tag : Tag) (t : Txn) (bpn : Bpn) (combines : Bool) (stage : CompStage) : CompOp :=
  { tag := tag, dom := t.dom, fpn := keyFpn t.line, line := keyPageIndex t.line, bpn := bpn, combines := combines, stage := stage }

theorem beginComponent_first (hnone : findEntry s t.dom (keyFpn t.line) = none) : beginComponent tag t bpn x .first s =
    { setPhase tag .entryTaken s with
      entry := { s.entry with
        list := s.entry.list ++ [{ dom := t.dom, fpn := keyFpn t.line, bpn := bpn, phase := .first, first := x
                                   firstSet := 0#64, combinedSet := 0#64 }]
        work := some (.component (compOp tag t bpn false .firstUpdate)) }
      maps := { s.maps with requests := s.maps.requests ++
        [.part (OneChange t.dom (keyFpn t.line) bpn [.empty] .first (some x))] } } := by
  simp only [beginComponent, hnone, Option.map_none, Option.getD_none]
  rfl

variable {e : EntryRec} (he : findEntry s t.dom (keyFpn t.line) = some e)
include he

theorem beginComponent_combineFirst : beginComponent tag t bpn x .combineFirst s =
    { setPhase tag .entryTaken s with
      entry := { s.entry with
        list := s.entry.list.map fun r => if r.dom = t.dom ∧ r.fpn = keyFpn t.line then { r with phase := .second } else r
        work := some (.component (compOp tag t e.bpn true .combineUpdate)) }
      maps := { s.maps with requests := s.maps.requests ++
        [.part (OneChange t.dom (keyFpn t.line) e.bpn [.half] .second none)] } } := by
  simp only [beginComponent, he, Option.map_some, Option.getD_some, onEntryRec_list]
  rfl

theorem beginComponent_line : beginComponent tag t bpn x .line s =
    offer .entry (setWork (some (.component (compOp tag t e.bpn false (.writing t.data)))) (setPhase tag .entryTaken s)) := by
  simp only [beginComponent, he, Option.map_some, Option.getD_some]
  rfl

theorem beginComponent_combine : beginComponent tag t bpn x .combine s =
    offer .entry (setWork (some (.component (compOp tag t e.bpn true (.reading none)))) (setPhase tag .entryTaken s)) := by
  simp only [beginComponent, he, Option.map_some, Option.getD_some]
  rfl

end Begins

/-- Setting a slot's phase moves no slot and no tag. -/
theorem slotLaw_setPhase {s : State} (h : SlotLaw s) (tag : Tag) (ph : Phase) : SlotLaw (setPhase tag ph s) := by
  obtain ⟨hlen, htags⟩ := h
  have hslots : (setPhase tag ph s).front.slots =
      s.front.slots.map fun x => if x.txn.tag == tag then { x with phase := ph } else x := rfl
  have hsame : (setPhase tag ph s).front.slots.map (fun x => x.txn.tag) = s.front.slots.map fun x => x.txn.tag := by
    rw [hslots, List.map_map]
    refine List.map_congr_left fun x _ => ?_
    dsimp only [Function.comp_apply]
    split <;> rfl
  refine ⟨?_, hsame ▸ htags⟩
  rw [hslots, List.length_map]
  exact hlen

/-- Settles O22: the action that the judgement answers, and what it begins. -/
theorem componentBegins : Obligations.ComponentBegins := by
  unfold Obligations.ComponentBegins
  rintro s taken tag bpn life rest y x d f l hpulse hlive hslots hwork hwaiting hy hr hall hdomain hopen rfl rfl rfl rfl
  have hjudge := (judgeComponent_page (life := life) hdomain hopen hall).2
  have hexec {a : CompAction} (h : judgePhase (findEntry s y.txn.dom (keyFpn y.txn.line)) life s.entry.list.length x
      (keyPageIndex y.txn.line) = .ok a) := exec_componentWrite_ok hpulse hlive hwork hwaiting hy (hjudge a h)
  have hphase := setPhase_of_slotLaw (s := { s with entry := { s.entry with waiting := rest } }) hslots hy hr .entryTaken
  have hoffers {c : CompOp} (hc : c.tag = tag) (hfirst : c.stage ≠ .firstUpdate) (hcombine : c.stage ≠ .combineUpdate) :
      EntryOffers c { s.moveSlot tag .key .entryTaken with entry := { s.entry with waiting := rest } }
        (offer .entry (setWork (some (.component c))
          (setPhase tag .entryTaken { s with entry := { s.entry with waiting := rest } }))) := by
    have hslots' : SlotLaw (setPhase tag .entryTaken { s with entry := { s.entry with waiting := rest } }) :=
      slotLaw_setPhase (s := { s with entry := { s.entry with waiting := rest } }) hslots tag .entryTaken
    have hy' := findSlot_setPhase_self { s with entry := { s.entry with waiting := rest } } .entryTaken hy
    rw [hphase] at hslots' hy' ⊢
    subst hc
    exact offerEntry_offers hslots' hy' hr hfirst hcombine
  refine ⟨fun hnone hlife hroom => ?_, fun e he hhalf hwho hbit => ?_, fun e he hfirst hwho => ?_,
    fun e he hsecond hwho hbit hfree => ?_⟩
  · rw [hexec (a := .first) (by rw [hnone, judgePhase, if_pos hlife]; exact if_pos hroom)]
    rw [beginComponent_first (s := { s with entry := { s.entry with waiting := rest } }) hnone, hphase]
    rfl
  · rw [hexec (a := .combineFirst) (by simp only [he, judgePhase, hhalf, if_neg hwho.symm, hbit, if_true])]
    rw [beginComponent_combineFirst (s := { s with entry := { s.entry with waiting := rest } }) he, hphase]
    rfl
  · refine ⟨_, hexec (a := .line) (by simp only [he, judgePhase, hfirst, hwho, if_true]), ?_⟩
    rw [beginComponent_line (s := { s with entry := { s.entry with waiting := rest } }) he]
    exact hoffers rfl nofun nofun
  · refine ⟨_, hexec (a := .combine) (by simp [he, judgePhase, hsecond, hwho.symm, hbit, hfree]), ?_⟩
    rw [beginComponent_combine (s := { s with entry := { s.entry with waiting := rest } }) he]
    exact hoffers rfl nofun nofun

/-! ## The combining read (R107) -/

theorem xorLine_get (x y : Line) (i : Fin 64) : (xorLine x y)[i] = x[i] ^^^ y[i] := by
  simp [xorLine]

/-- Settles O23: the burst taken, the line combined, and its line write offered. -/
theorem combiningBurst : Obligations.CombiningBurst := by
  unfold Obligations.CombiningBurst
  intro s x c y hlive hslots hhead hwork hstage hy hr
  have hawaits : combineAwaiting x.req.id s = some c := by
    simp only [combineAwaiting, hwork, hstage, if_true]
  have hexec : exec .combiningReadBurst s = .next (combineArrives c x s) := by
    show Host.Outcome.next (arriveCombine s) = _
    simp only [arriveCombine, arrivingRead_of_head hhead, hawaits]
    exact congrArg Host.Outcome.next (if_pos ⟨hlive, hhead.2.2⟩)
  refine ⟨fun key hkey => ?_, fun hnone => ⟨takeBurst x s, takeBurst_taken x s, ?_⟩⟩
  · refine ⟨takeBurst x s, _, xorLine (decipher key x.req.line (s.mem.readLine x.req.line)) y.txn.data, takeBurst_taken x s,
      hexec, fun i => xorLine_get _ _ i, ?_⟩
    simp only [combineArrives, hkey, hy]
    exact offerEntry_offers (s := takeBurst x s) (c := { c with stage := .writing _ }) hslots hy hr nofun nofun
  · rw [hexec]
    simp only [combineArrives, hnone]
    rw [refuse_of_slotLaw (s := takeBurst x s) hslots hy hr]
    rfl

end Sys2Proof.Machine

/-! PROOFS. The kernel's merge, descriptor by descriptor (KernelKeepsEntry). -/

namespace Sys2Proof.Machine

/-! ## Codes and usable descriptors -/

theorem Lifecycle.ofCode_eq_some : ∀ (c : BitVec 3) (l : Lifecycle), Lifecycle.ofCode c = some l ↔ c = l.code := by
  intro c l
  cases l <;> revert c <;> decide

theorem PageClass.ofCode_eq_some : ∀ (c : BitVec 2) (k : PageClass), PageClass.ofCode c = some k ↔ c = k.code := by
  intro c k
  cases k <;> revert c <;> decide

/-- A usable KEY descriptor, and what it lets go on. -/
theorem page_key_iff {x : Desc} {d : DomId} {f : Fpn} {epoch : Epoch} {p : Page} :
    x.page d f epoch = some p ∧ p.cls = .key ↔ x.valid = 1#1 ∧ x.epoch = epoch ∧ x.cls = 2#2 ∧ x.life = p.life.code ∧
      p = { dom := d, fpn := f, bpn := x.bpn, cls := .key, kernelOnly := x.kernelOnly = 1#1, life := p.life } := by
  have hclass : PageClass.ofCode x.cls = some .key ↔ x.cls = 2#2 := PageClass.ofCode_eq_some x.cls .key
  unfold Desc.page
  by_cases hvalid : x.valid = 1#1 ∧ x.epoch = epoch
  · rw [if_pos hvalid]
    cases hcls : PageClass.ofCode x.cls with
    | none => 
      have hne : x.cls ≠ 2#2 := fun h => by rw [hclass.mpr h] at hcls; cases hcls
      simp [hne]
    | some k =>
      cases k with
      | key =>
        simp only [Option.map_eq_some_iff, Lifecycle.ofCode_eq_some, hvalid, hclass.mp hcls, true_and]
        constructor
        · rintro ⟨⟨l, hl, rfl⟩, -⟩
          exact ⟨hl, rfl⟩
        · rintro ⟨hlife, hp⟩
          exact ⟨⟨p.life, hlife, hp.symm⟩, by rw [hp]⟩
      | dataRw =>
        have hne : x.cls ≠ 2#2 := fun h => by rw [hclass.mpr h] at hcls; cases hcls
        simp only [Option.some.injEq, hne, false_and, and_false, iff_false, not_and]
        rintro rfl
        nofun
      | dataRo =>
        have hne : x.cls ≠ 2#2 := fun h => by rw [hclass.mpr h] at hcls; cases hcls
        simp only [Option.some.injEq, hne, false_and, and_false, iff_false, not_and]
        rintro rfl
        nofun
  · rw [if_neg hvalid]
    constructor
    · nofun
    · rintro ⟨h1, h2, -⟩
      exact absurd ⟨h1, h2⟩ hvalid

/-- The lifecycles that only the entry of a page and its retirement leave. -/
def Lifecycle.guarded (l : Lifecycle) : Prop := l = .first ∨ l = .half ∨ l = .second ∨ l = .live

theorem Lifecycle.guarded_iff (l : Lifecycle) : l.guarded ↔ 1 ≤ l.code.toNat ∧ l.code.toNat ≤ 4 := by
  unfold Lifecycle.guarded
  cases l <;> decide

theorem Desc.guarded_iff {x : Desc} {epoch : Epoch} : x.Guarded epoch ↔
    ∃ p, x.page 0#6 0#14 epoch = some p ∧ p.cls = .key ∧ p.life.guarded := by
  constructor
  · rintro ⟨⟨hvalid, -, -, hepoch⟩, hcls, hlow, hhigh⟩
    obtain ⟨l, hl⟩ : ∃ l : Lifecycle, x.life = l.code := by
      have hnames : ∀ c : BitVec 3, 1 ≤ c.toNat → c.toNat ≤ 4 → (Lifecycle.ofCode c).isSome = true := by decide
      obtain ⟨l, hl⟩ := Option.isSome_iff_exists.mp (hnames x.life hlow hhigh)
      exact ⟨l, (Lifecycle.ofCode_eq_some x.life l).mp hl⟩
    refine ⟨{ dom := 0#6, fpn := 0#14, bpn := x.bpn, cls := .key, kernelOnly := x.kernelOnly = 1#1, life := l }, ?_⟩
    have hpage := page_key_iff (d := 0#6) (f := 0#14) (p := { dom := 0#6, fpn := 0#14, bpn := x.bpn, cls := .key, kernelOnly := x.kernelOnly = 1#1, life := l }) |>.mpr
      ⟨hvalid, hepoch, hcls, hl, rfl⟩
    exact ⟨hpage.1, rfl, l.guarded_iff.mpr (by rw [← hl]; exact ⟨hlow, hhigh⟩)⟩
  · rintro ⟨p, hpage, hkey, hlife⟩
    obtain ⟨hvalid, hepoch, hcls, hcode, -⟩ := page_key_iff.mp ⟨hpage, hkey⟩
    obtain ⟨hlow, hhigh⟩ := p.life.guarded_iff.mp hlife
    rw [← hcode] at hlow hhigh
    exact ⟨⟨hvalid, by rw [hcls]; decide, fun _ => by omega, hepoch⟩, hcls, hlow, hhigh⟩

/-! ## The merge of one descriptor -/

/-- A touched descriptor in entry or LIVE may only be retired (R38). -/
theorem mergeDesc_of_guarded {x n : Desc} {epoch : Epoch} (h : x.Guarded epoch) :
    mergeDesc x n epoch = guardDesc x n (decide (x.life ≠ 4#3)) := by
  obtain ⟨p, hpage, hkey, hlife⟩ := Desc.guarded_iff.mp h
  obtain ⟨-, -, -, hcode, -⟩ := page_key_iff.mp ⟨hpage, hkey⟩
  unfold mergeDesc
  simp only [hpage, hkey, hcode]
  obtain hl | hl | hl | hl := hlife <;> rw [hl] <;> rfl

/-- Any other touched descriptor is formed from the proposed one (R38, R39). -/
theorem mergeDesc_of_not_guarded {x n : Desc} {epoch : Epoch} (h : ¬x.Guarded epoch) :
    mergeDesc x n epoch = { out := forceDesc n epoch, held := false, retires := false, removes := false } := by
  unfold mergeDesc
  cases hpage : x.page 0#6 0#14 epoch with
  | none => rfl
  | some p =>
    have hnot (hkey : p.cls = .key) : ¬p.life.guarded := fun hlife => h (Desc.guarded_iff.mpr ⟨p, hpage, hkey, hlife⟩)
    dsimp only
    split
    · next hkey hlife => exact absurd (.inl hlife) (hnot hkey)
    · next hkey hlife => exact absurd (.inr (.inl hlife)) (hnot hkey)
    · next hkey hlife => exact absurd (.inr (.inr (.inl hlife))) (hnot hkey)
    · next hkey hlife => exact absurd (.inr (.inr (.inr hlife))) (hnot hkey)
    · rfl

theorem forceDesc_forced (n : Desc) (epoch : Epoch) : ForcedFields n (forceDesc n epoch) epoch := by
  refine ⟨fun h => if_pos h, fun h hcls => ?_, fun h hcls => ?_, fun h hcls => ?_⟩ <;>
    rw [forceDesc, if_neg (by rw [h]; decide)]
  · rw [hcls]
    rfl
  · obtain hcls | hcls := hcls <;> rw [hcls] <;> rfl
  · rw [hcls]
    rfl

/-! ## Lines bit by bit -/

theorem lineDescs_getLsbD (l : Line) (i : Fin 8) {b : Nat} (hb : b < 64) :
    (lineDescs l)[i].getLsbD b = (l[8 * i.val + b / 8]'(by omega)).getLsbD (b % 8) := by
  have hbyte : (descsLine (lineDescs l))[8 * i.val + b / 8]'(by omega) = l[8 * i.val + b / 8]'(by omega) := by
    rw [descsLine_lineDescs]
  have hdesc : (8 * i.val + b / 8) / 8 = i.val := by omega
  have hplace : (8 * i.val + b / 8) % 8 = b / 8 := by omega
  rw [← hbyte]
  simp only [descsLine, Vector.getElem_ofFn, hdesc, hplace, BitVec.getLsbD_extractLsb', Nat.mod_lt b (by decide : 0 < 8),
    decide_true, Bool.true_and, Nat.div_add_mod, Fin.getElem_fin]

theorem proposed_mergeLine (stored data : Line) (enables : Marks) (i : Fin 8) :
    Proposed stored data enables i (Desc.ofBits (lineDescs (mergeLine stored data enables))[i]) := by
  intro b hb
  rw [Desc.toBits_ofBits, lineDescs_getLsbD _ _ hb, lineDescs_getLsbD _ _ hb, lineDescs_getLsbD _ _ hb]
  have hget := mergeLine_get stored data enables ⟨8 * i.val + b / 8, by omega⟩
  simp only [Fin.getElem_fin] at hget
  rw [hget]
  split <;> rfl

theorem touches_iff {enables : Marks} {i : Fin 8} : touches enables i = true ↔ Touched enables i := by
  rw [touches, bne_iff_ne, ne_zero_iff_bit]
  simp only [BitVec.getLsbD_extractLsb', Touched, Bool.and_eq_true, decide_eq_true_eq]
  exact exists_congr fun j => and_congr_right fun hj => and_iff_right hj

/-! ## The merge of a line -/

section Merge

variable {stored data : Line} {enables : Marks} {epoch : Epoch}

/-- The descriptors proposed (R37). -/
def proposedDesc (stored data : Line) (enables : Marks) (i : Fin 8) : Desc :=
  Desc.ofBits (lineDescs (mergeLine stored data enables))[i]

/-- The descriptors stored. -/
def storedDesc (stored : Line) (i : Fin 8) : Desc := Desc.ofBits (lineDescs stored)[i]

theorem mergeAt_untouched {i : Fin 8} (h : ¬Touched enables i) : mergeAt stored data enables epoch i =
    { out := storedDesc stored i, held := false, retires := false, removes := false } := by
  rw [mergeAt, if_neg fun htouches => h (touches_iff.mp htouches)]
  rfl

theorem mergeAt_guarded {i : Fin 8} (h : Touched enables i) (hguarded : (storedDesc stored i).Guarded epoch) :
    mergeAt stored data enables epoch i = guardDesc (storedDesc stored i) (proposedDesc stored data enables i)
      (decide ((storedDesc stored i).life ≠ 4#3)) := by
  rw [mergeAt, if_pos (touches_iff.mpr h)]
  exact mergeDesc_of_guarded hguarded

theorem mergeAt_formed {i : Fin 8} (h : Touched enables i) (hfree : ¬(storedDesc stored i).Guarded epoch) :
    mergeAt stored data enables epoch i =
      { out := forceDesc (proposedDesc stored data enables i) epoch, held := false, retires := false, removes := false } := by
  rw [mergeAt, if_pos (touches_iff.mpr h)]
  exact mergeDesc_of_not_guarded hfree

/-- Descriptor `i` is one that the merge retires. -/
def Retires (stored data : Line) (enables : Marks) (epoch : Epoch) (i : Fin 8) : Prop :=
  Touched enables i ∧ (storedDesc stored i).Guarded epoch ∧ (proposedDesc stored data enables i).life = 5#3

theorem guardDesc_retired {x n : Desc} (h : n.life = 5#3) (inEntry : Bool) : guardDesc x n inEntry =
    { out := { x with life := 5#3, owner := n.owner }, held := false, retires := true, removes := inEntry } :=
  if_pos h

theorem guardDesc_kept {x n : Desc} (h : n.life ≠ 5#3) (inEntry : Bool) : guardDesc x n inEntry =
    { out := { x with owner := n.owner }, held := decide ({ n with owner := x.owner } ≠ x), retires := false
      removes := false } :=
  if_neg h

theorem mergeAt_retires {i : Fin 8} (h : Retires stored data enables epoch i) : mergeAt stored data enables epoch i =
    { out := { storedDesc stored i with life := 5#3, owner := (proposedDesc stored data enables i).owner }
      held := false, retires := true, removes := decide ((storedDesc stored i).life ≠ 4#3) } := by
  obtain ⟨htouched, hguarded, hlife⟩ := h
  rw [mergeAt_guarded htouched hguarded, guardDesc_retired hlife]

theorem mergeAt_kept {i : Fin 8} (h : Touched enables i) (hguarded : (storedDesc stored i).Guarded epoch)
    (hlife : (proposedDesc stored data enables i).life ≠ 5#3) : mergeAt stored data enables epoch i =
      { out := { storedDesc stored i with owner := (proposedDesc stored data enables i).owner }
        held := decide ({ proposedDesc stored data enables i with owner := (storedDesc stored i).owner } ≠ storedDesc stored i)
        retires := false, removes := false } := by
  rw [mergeAt_guarded h hguarded, guardDesc_kept hlife]

/-- Where nothing retires a descriptor, none of its marks but the held one is set. -/
theorem mergeAt_of_not_retires {i : Fin 8} (h : ¬Retires stored data enables epoch i) :
    (mergeAt stored data enables epoch i).retires = false ∧ (mergeAt stored data enables epoch i).removes = false := by
  by_cases htouched : Touched enables i
  · by_cases hguarded : (storedDesc stored i).Guarded epoch
    · rw [mergeAt_kept htouched hguarded fun hlife => h ⟨htouched, hguarded, hlife⟩]
      exact ⟨rfl, rfl⟩
    · rw [mergeAt_formed htouched hguarded]
      exact ⟨rfl, rfl⟩
  · rw [mergeAt_untouched htouched]
    exact ⟨rfl, rfl⟩

theorem mergeAt_retires_iff {i : Fin 8} :
    (mergeAt stored data enables epoch i).retires = true ↔ Retires stored data enables epoch i := by
  by_cases h : Retires stored data enables epoch i
  · simp [mergeAt_retires h, h]
  · simp [mergeAt_of_not_retires h, h]

theorem mergeAt_removes_iff {i : Fin 8} : (mergeAt stored data enables epoch i).removes = true ↔
    Retires stored data enables epoch i ∧ (storedDesc stored i).life ≠ 4#3 := by
  by_cases h : Retires stored data enables epoch i
  · simp [mergeAt_retires h, h]
  · simp [mergeAt_of_not_retires h, h]

/-- A change but of owner bits, read from either side. -/
theorem owner_ne_iff {x n : Desc} : ({ n with owner := x.owner } : Desc) ≠ x ↔ n ≠ { x with owner := n.owner } := by
  refine not_congr ⟨fun h => ?_, fun h => ?_⟩
  · rw [← h]
  · rw [h]

theorem mergeAt_held_iff {i : Fin 8} : (mergeAt stored data enables epoch i).held = true ↔
    Touched enables i ∧ (storedDesc stored i).Guarded epoch ∧ (proposedDesc stored data enables i).life ≠ 5#3 ∧
      proposedDesc stored data enables i ≠
        { storedDesc stored i with owner := (proposedDesc stored data enables i).owner } := by
  by_cases htouched : Touched enables i
  · by_cases hguarded : (storedDesc stored i).Guarded epoch
    · by_cases hlife : (proposedDesc stored data enables i).life = 5#3
      · simp [mergeAt_retires ⟨htouched, hguarded, hlife⟩, hlife]
      · rw [mergeAt_kept htouched hguarded hlife]
        simp only [decide_eq_true_eq, owner_ne_iff, htouched, hguarded, hlife, ne_eq, not_false_eq_true, true_and]
    · simp [mergeAt_formed htouched hguarded, hguarded]
  · simp [mergeAt_untouched htouched, htouched]

theorem formMerge_desc (k : MapLine) (i : Fin 8) :
    Desc.ofBits (lineDescs (formMerge k stored data enables epoch).1)[i] = (mergeAt stored data enables epoch i).out := by
  simp only [formMerge, lineDescs_descsLine, Fin.getElem_fin, Vector.getElem_ofFn, Desc.ofBits_toBits]

/-- What is listed of some descriptors is in their order. -/
theorem filterMap_sublist {α : Type} (k : MapLine) (c : Fin 8 → Bool) (g : Fin 8 → α) (h : α → DomId × Fpn)
    (hg : ∀ i, h (g i) = (mapLineDomain k, mapLineFpn k i)) :
    (((List.finRange 8).filterMap fun i => if c i then some (g i) else none).map h).Sublist (mapLinePairs k) := by
  have heq : (((List.finRange 8).filterMap fun i => if c i then some (g i) else none).map h) =
      ((List.finRange 8).filter c).map fun i => (mapLineDomain k, mapLineFpn k i) := by
    rw [List.map_filterMap, ← List.filterMap_eq_filter, List.map_filterMap]
    refine List.filterMap_congr fun i _ => ?_
    cases hc : c i <;> simp [Option.guard, hc, hg]
  rw [heq, mapLinePairs]
  exact List.filter_sublist.map _

theorem fill_eq_iff {k : MapLine} {i : Fin 8} {b : Bpn} {f : Fill} : fillOf k i b = f ↔
    (mapLinePairs k)[i.val]? = some (f.dom, f.fpn) ∧ f.bpn = b ∧ f.line = k ∧ f.next = 0 := by
  obtain ⟨dom, fpn, bpn, line, next⟩ := f
  rw [mapLinePairs_getElem?, fillOf]
  simp only [Fill.mk.injEq, Option.some.injEq, Prod.mk.injEq, eq_comm, and_assoc]

/-- A kernel merge by the table of its descriptors. -/
theorem formMerge_merges (k : MapLine) (stored data : Line) (enables : Marks) (epoch : Epoch) :
    Merges k enables epoch (storedDesc stored) (proposedDesc stored data enables)
      (fun i => Desc.ofBits (lineDescs (formMerge k stored data enables epoch).1)[i])
      (formMerge k stored data enables epoch).2.1 (formMerge k stored data enables epoch).2.2.1
      (formMerge k stored data enables epoch).2.2.2 := by
  have hresult : (fun i : Fin 8 => Desc.ofBits (lineDescs (formMerge k stored data enables epoch).1)[i]) =
      fun i => (mergeAt stored data enables epoch i).out := funext fun i => formMerge_desc k i
  rw [hresult]
  refine ⟨fun i h => ?_, fun i h hfree => ?_, fun i h => ?_, fun i h hguarded hlife => ?_, ?_, ?_, fun f => ?_, ?_, fun p => ?_⟩
  · exact congrArg MergeOut.out (mergeAt_untouched h)
  · show ForcedFields _ (mergeAt stored data enables epoch i).out epoch
    rw [mergeAt_formed h hfree]
    exact forceDesc_forced _ _
  · exact congrArg MergeOut.out (mergeAt_retires h)
  · exact congrArg MergeOut.out (mergeAt_kept h hguarded hlife)
  · simp only [formMerge, List.any_eq_true, List.mem_finRange, true_and, mergeAt_held_iff]
  · exact filterMap_sublist k (fun i => (mergeAt stored data enables epoch i).retires)
      (fun i => fillOf k i (mergeAt stored data enables epoch i).out.bpn) (fun f => (f.dom, f.fpn)) fun i => rfl
  · simp only [formMerge, List.mem_filterMap, List.mem_finRange, true_and, Option.ite_none_right_eq_some, Option.some.injEq,
      mergeAt_retires_iff, fill_eq_iff]
    refine exists_congr fun i => and_congr_right fun h => ?_
    rw [mergeAt_retires h]
  · have hsub := filterMap_sublist k (fun i => (mergeAt stored data enables epoch i).removes)
      (fun i => (mapLineDomain k, mapLineFpn k i)) id fun i => rfl
    rwa [List.map_id] at hsub
  · simp only [formMerge, List.mem_filterMap, List.mem_finRange, true_and, Option.ite_none_right_eq_some, Option.some.injEq,
      mergeAt_removes_iff, mapLinePairs_getElem?, Retires, and_assoc]

/-- A formed descriptor holds no page in entry or LIVE (R39). -/
theorem forceDesc_not_guarded (n : Desc) (epoch : Epoch) : ¬(forceDesc n epoch).Guarded epoch := by
  rintro ⟨⟨hvalid, -⟩, hcls, hlow, -⟩
  obtain ⟨hstored, hkey, hdata, hother⟩ := forceDesc_forced n epoch
  have hbit : ∀ v : BitVec 1, v = 0#1 ∨ v = 1#1 := by decide
  have hclass : ∀ c : BitVec 2, c = 2#2 ∨ (c = 0#2 ∨ c = 1#2) ∨ c = 3#2 := by decide
  obtain hzero | hone := hbit n.valid
  · rw [hstored hzero, hzero] at hvalid
    exact absurd hvalid (by decide)
  · obtain h | h | h := hclass n.cls
    · rw [hkey hone h] at hlow
      exact absurd hlow (show ¬1 ≤ (0#3).toNat by decide)
    · rw [hdata hone h] at hcls
      obtain h | h := h <;> exact absurd (h.symm.trans hcls) (by decide)
    · rw [hother hone h] at hcls
      exact absurd (h.symm.trans hcls) (by decide)

/-- Settles O15: the table of the merge, and what it lets a result hold. -/
theorem kernelKeepsEntry : Obligations.KernelKeepsEntry := by
  unfold Obligations.KernelKeepsEntry
  refine ⟨fun k stored data result enables epoch fills held removes h => ?_, fun k stored data enables epoch i p hpage hkey hlife => ?_⟩
  · refine ⟨proposedDesc stored data enables, proposed_mergeLine stored data enables, ?_⟩
    have hmerges := formMerge_merges k stored data enables epoch
    rw [h] at hmerges
    exact hmerges
  · have hguarded : (Desc.ofBits (lineDescs (formMerge k stored data enables epoch).1)[i]).Guarded epoch :=
      Desc.guarded_iff.mpr ⟨p, hpage, hkey, hlife⟩
    rw [formMerge_desc] at hguarded ⊢
    show ({ (mergeAt stored data enables epoch i).out with owner := (storedDesc stored i).owner } : Desc) = storedDesc stored i
    by_cases htouched : Touched enables i
    · by_cases hstored : (storedDesc stored i).Guarded epoch
      · by_cases hretired : (proposedDesc stored data enables i).life = 5#3
        · rw [mergeAt_retires ⟨htouched, hstored, hretired⟩] at hguarded
          exact absurd hguarded.2.2.2 (show ¬(5#3).toNat ≤ 4 by decide)
        · rw [mergeAt_kept htouched hstored hretired]
      · rw [mergeAt_formed htouched hstored] at hguarded
        exact absurd hguarded (forceDesc_not_guarded _ _)
    · rw [mergeAt_untouched htouched]

end Merge

end Sys2Proof.Machine

/-! PROOFS. The line read of an update: the part's changes, the result formed and the room it takes, and the failure of a part
update (UpdateLineArrives). -/

namespace Sys2Proof.Machine

/-! ## The part's changes (R42) -/

theorem passes_iff {stored : Line} {epoch : Epoch} {c : PartChange} : passes stored epoch c = true ↔
    ChangePasses c epoch (Desc.ofBits (lineDescs stored)[descIndex c.fpn]) := by
  unfold passes ChangePasses
  generalize Desc.ofBits (lineDescs stored)[descIndex c.fpn] = x
  cases hpage : x.page c.dom c.fpn epoch with
  | none =>
    simp only [Bool.false_eq_true, false_iff]
    rintro ⟨hvalid, hepoch, hcls, -, life, -, hlife⟩
    have := (page_key_iff (d := c.dom) (f := c.fpn) (p := { dom := c.dom, fpn := c.fpn, bpn := x.bpn, cls := .key, kernelOnly := x.kernelOnly = 1#1, life := life })).mpr
      ⟨hvalid, hepoch, hcls, hlife, rfl⟩
    rw [hpage] at this
    exact Option.noConfusion rfl (heq_of_eq this.1)
  | some p =>
    simp only [Bool.and_eq_true, beq_iff_eq, List.contains_iff_mem]
    constructor
    · rintro ⟨⟨hkey, hbpn⟩, hlife⟩
      obtain ⟨hvalid, hepoch, hcls, hcode, hp⟩ := page_key_iff.mp ⟨hpage, hkey⟩
      refine ⟨hvalid, hepoch, hcls, ?_, p.life, hlife, hcode⟩
      rw [← hbpn, hp]
    · rintro ⟨hvalid, hepoch, hcls, hbpn, life, hlife, hcode⟩
      have hother := (page_key_iff (d := c.dom) (f := c.fpn) (p := { dom := c.dom, fpn := c.fpn, bpn := x.bpn, cls := .key, kernelOnly := x.kernelOnly = 1#1, life := life })).mpr
        ⟨hvalid, hepoch, hcls, hcode, rfl⟩
      obtain rfl := Option.some.inj (hpage.symm.trans hother.1)
      exact ⟨⟨rfl, hbpn⟩, hlife⟩

theorem applyChange_eq (c : PartChange) (x : Desc) : applyChange c x = x.changed c := by
  unfold applyChange Desc.changed
  cases c.cust with
  | none => rfl
  | some y => cases y <;> rfl

theorem formPart_nil (stored : Line) : formPart stored [] = stored := descsLine_lineDescs stored

theorem formPart_cons (stored : Line) (c : PartChange) (rest : List PartChange) :
    formPart stored (c :: rest) = formPart (formPart stored [c]) rest := by
  simp only [formPart, List.foldl_cons, List.foldl_nil, lineDescs_descsLine]

theorem formPart_desc (stored : Line) (c : PartChange) (i : Fin 8) :
    Desc.ofBits (lineDescs (formPart stored [c]))[i] =
      if i = descIndex c.fpn then (Desc.ofBits (lineDescs stored)[i]).changed c else Desc.ofBits (lineDescs stored)[i] := by
  simp only [formPart, List.foldl_cons, List.foldl_nil, lineDescs_descsLine]
  by_cases hi : i = descIndex c.fpn
  · subst hi
    simp [Desc.ofBits_toBits, applyChange_eq]
  · have hne : (descIndex c.fpn).val ≠ i.val := fun h => hi (Fin.ext h).symm
    simp [hi, hne]

theorem partFills_eq (p : PartUpdate) : partFills p = (p.changes.filter fun c => c.life = .retired).map fun c =>
    { dom := c.dom, fpn := c.fpn, bpn := c.bpn, line := p.line, next := 0 } := by
  rw [partFills, ← List.filterMap_eq_filter, List.map_filterMap]
  refine List.filterMap_congr fun c _ => ?_
  by_cases hlife : c.life = .retired <;> simp [Option.guard, hlife]

/-! ## The result formed (R36) -/

section Forming

variable {s : State}

/-- An entry enters WRITING: it waits to send its line write, or for its room. -/
theorem enterWriting_enters {k : MapLine} (stored result : Line) (fills : List Fill) (held : Bool)
    (removes : List (DomId × Fpn)) (hlisted : ∃ v ∈ s.maps.updates, v.line = k) (hroom : RoomLaw s) :
    EntersWriting k stored result fills held removes s (enterWriting k stored result fills held removes s) := by
  refine ⟨fun hnone => ?_, fun hsome => ?_⟩
  · rw [enterWriting, if_pos (by rw [hnone]; rfl), beginWait_back, onUpdate_eq]
  · have hempty : ¬fills.isEmpty = true := fun h => hsome (List.isEmpty_iff.mp h)
    rw [enterWriting, if_neg hempty, onUpdate_eq]
    refine grantRoom_given _ _ fun k' hk' => ?_
    have hkept : ∃ v ∈ s.maps.updates, v.line = k' := by
      obtain hk' | hk' := List.mem_append.mp hk'
      · exact hroom k' hk'
      · rw [List.mem_singleton.mp hk']
        exact hlisted
    obtain ⟨v, hv, hline⟩ := hkept
    refine ⟨_, List.mem_map_of_mem hv, ?_⟩
    dsimp only
    split
    · exact hline
    · exact hline

theorem leaveUpdates_eq (k : MapLine) (s : State) : leaveUpdates k s = { s with maps := s.maps.left k } := by
  have htogether : (s.maps.requests.filter fun q => q.line == k || s.maps.together.contains q) =
      s.maps.requests.filter fun r => r.line = k ∨ r ∈ s.maps.together := by
    refine List.filter_congr fun q _ => ?_
    rw [Bool.eq_iff_iff]
    simp
  rw [leaveUpdates, State.onMaps, MapUnit.left, htogether]
  rfl

end Forming

/-! ## Failed pages (R42) -/

section Failing

variable {s : State}

theorem removeEntry_eq (d : DomId) (f : Fpn) (s : State) :
    removeEntry d f s = { s with entry := { s.entry with list := listWithout [(d, f)] s.entry.list } } := by
  have hlist : (s.entry.list.filter fun e => !(e.dom == d && e.fpn == f)) = listWithout [(d, f)] s.entry.list := by
    refine List.filter_congr fun e _ => ?_
    rw [Bool.eq_iff_iff]
    simp
  rw [removeEntry, State.onEntry, hlist]

theorem findEntry_isSome_iff {d : DomId} {f : Fpn} :
    (findEntry s d f).isSome = true ↔ (s.entry.list.any fun e => [(d, f)].contains (e.dom, e.fpn)) = true := by
  simp [findEntry]

theorem listWithout_of_not_any {pages : List (DomId × Fpn)} {l : List EntryRec}
    (h : (l.any fun e => pages.contains (e.dom, e.fpn)) = false) : listWithout pages l = l := by
  refine List.filter_eq_self.mpr fun e he => ?_
  rw [List.any_eq_false.mp h e he |> Bool.eq_false_iff.mpr]
  rfl

theorem failPage_eq (hlive : live s = true) (p : DomId × Fpn) : failPage s p = PagesFailed [p] s := by
  obtain ⟨d, f⟩ := p
  unfold failPage PagesFailed
  cases hlisted : s.entry.list.any fun e => [(d, f)].contains (e.dom, e.fpn) with
  | true =>
    rw [if_pos (findEntry_isSome_iff.mpr hlisted), removeEntry_eq, raise_eq (by exact hlive)]
    rfl
  | false =>
    rw [if_neg fun h => Bool.noConfusion (hlisted.symm.trans (findEntry_isSome_iff.mp h)),
      listWithout_of_not_any hlisted]
    simp

theorem pagesFailed_nil (s : State) : PagesFailed [] s = s := by
  unfold PagesFailed
  have hlist : listWithout [] s.entry.list = s.entry.list := List.filter_eq_self.mpr fun _ _ => rfl
  simp [hlist]

theorem pagesFailed_pagesFailed (p : DomId × Fpn) (pages : List (DomId × Fpn)) (s : State) :
    PagesFailed pages (PagesFailed [p] s) = PagesFailed (p :: pages) s := by
  unfold PagesFailed
  have hlist : listWithout pages (listWithout [p] s.entry.list) = listWithout (p :: pages) s.entry.list := by
    rw [listWithout, listWithout, List.filter_filter]
    refine List.filter_congr fun e _ => ?_
    rw [Bool.eq_iff_iff]
    simp [and_comm]
  have hany : (s.entry.list.any fun e => (p :: pages).contains (e.dom, e.fpn)) =
      ((s.entry.list.any fun e => [p].contains (e.dom, e.fpn)) ||
        (listWithout [p] s.entry.list).any fun e => pages.contains (e.dom, e.fpn)) := by
    rw [Bool.eq_iff_iff]
    simp only [List.any_eq_true, Bool.or_eq_true, listWithout, List.mem_filter, List.contains_iff_mem, Bool.not_eq_true',
      ← Bool.not_eq_true, List.mem_cons, List.not_mem_nil, or_false]
    constructor
    · rintro ⟨e, he, hpage⟩
      by_cases heq : (e.dom, e.fpn) = p
      · exact .inl ⟨e, he, heq⟩
      · exact .inr ⟨e, ⟨he, heq⟩, hpage.resolve_left heq⟩
    · rintro (⟨e, he, heq⟩ | ⟨e, ⟨he, -⟩, hpage⟩)
      · exact ⟨e, he, .inl heq⟩
      · exact ⟨e, he, .inr hpage⟩
  have hflags (a : BitVec 11) (x y : Bool) (m : BitVec 11) :
      a ||| (if x then m else 0#11) ||| (if y then m else 0#11) = a ||| (if x || y then m else 0#11) := by
    cases x <;> cases y <;> simp [BitVec.or_assoc]
  simp only [hlist, hflags, hany]

theorem foldl_failPage (hlive : live s = true) (pages : List (DomId × Fpn)) : pages.foldl failPage s = PagesFailed pages s := by
  induction pages generalizing s with
  | nil => exact (pagesFailed_nil s).symm
  | cons p pages ih =>
    rw [List.foldl_cons, failPage_eq hlive, ih (s := PagesFailed [p] s) hlive, pagesFailed_pagesFailed]

/-- A part update fails: its entries go, and the operation in progress is refused or goes on. -/
theorem partFailed_failed (hlive : live s = true) (hslots : SlotLaw s)
    (hregion : ∀ c y, s.entry.work = some (.component c) → findSlot s c.tag = some y → y.region = some .key)
    (pages : List (DomId × Fpn)) : Failed pages s (partFailed pages s) := by
  unfold Failed partFailed
  rw [foldl_failPage hlive]
  have hwork : (PagesFailed pages s).entry.work = s.entry.work := rfl
  dsimp only
  rw [hwork]
  cases hcase : s.entry.work with
  | none => rfl
  | some w =>
    cases w with
    | component c => exact dropComponent_dropped (s := PagesFailed pages s) hslots fun y hy => hregion c y hcase hy
    | finalising x d f st rest => exact advanceFin_next (s := PagesFailed pages s) hlive x rest
    | abandoning rest => exact advanceAbandon_next rest _

end Failing

/-- Settles O13: the changes descriptor by descriptor, and what the arriving line makes of its entry. -/
theorem updateLineArrives : Obligations.UpdateLineArrives := by
  unfold Obligations.UpdateLineArrives
  refine ⟨rfl, fun stored epoch c => passes_iff, fun stored c rest => ⟨formPart_nil stored, formPart_cons stored c rest,
    formPart_desc stored c⟩, partFills_eq, ?_⟩
  rintro s x u key stored hlive hhead hawaits hkey hslots hroom hregion rfl
  have hexec : exec .updateLineReadArrival s =
      .next (updateArrived u (decipher key x.req.line (s.mem.readLine x.req.line)) (takeBurst x s)) := by
    show Host.Outcome.next (arriveUpdate s) = _
    simp only [arriveUpdate, arrivingRead_of_head hhead, hawaits]
    rw [if_pos ⟨hlive, hhead.2.2⟩, updateArrives, hkey]
  have hlisted : ∃ v ∈ (takeBurst x s).maps.updates, v.line = u.line := ⟨u, List.mem_of_find?_eq_some hawaits, rfl⟩
  have hepoch : domEpoch (takeBurst x s) (mapLineDomain u.line) = domEpoch s (mapLineDomain u.line) := rfl
  refine ⟨fun tag y result fills held removes horigin hy hform => ?_, fun p horigin hall => ?_,
    fun p failed horigin hfailed hsome => ?_⟩
  · refine ⟨takeBurst x s, _, takeBurst_taken x s, hexec, ?_⟩
    have hy' : findSlot (takeBurst x s) tag = some y := hy
    simp only [updateArrived, horigin, hy', hepoch, ← hform]
    exact enterWriting_enters _ _ _ _ _ hlisted hroom
  · refine ⟨takeBurst x s, _, takeBurst_taken x s, hexec, ?_⟩
    have hnone : (p.changes.filter fun c => !passes (decipher key x.req.line (s.mem.readLine x.req.line))
        (domEpoch s (mapLineDomain u.line)) c) = [] := by
      refine List.filter_eq_nil_iff.mpr fun c hc => ?_
      rw [hall c hc]
      exact Bool.noConfusion
    simp only [updateArrived, horigin, hepoch, hnone, List.isEmpty_nil, if_true]
    exact enterWriting_enters _ _ _ _ _ hlisted hroom
  · refine ⟨takeBurst x s, _, takeBurst_taken x s, hexec, ?_⟩
    have hempty : ¬failed.isEmpty = true := fun h => hsome (List.isEmpty_iff.mp h)
    simp only [updateArrived, horigin, hepoch, ← hfailed]
    rw [if_neg hempty, leaveUpdates_eq]
    exact partFailed_failed (s := { takeBurst x s with maps := s.maps.left u.line }) hlive hslots hregion _

end Sys2Proof.Machine

/-! PROOFS. The line write of an update, and what it hands on to buffers, Entry List, Entry Unit and sender
(UpdateLineIsWritten). -/

namespace Sys2Proof.Machine

/-! ## Retired pages (R38, R114) -/

section Retiring

variable {s : State}

/-- The Entry Unit once the kernel has retired pages. -/
theorem kernelRetires_retired (hlive : live s = true) (hslots : SlotLaw s)
    (hregion : ∀ c y, s.entry.work = some (.component c) → findSlot s c.tag = some y → y.region = some .key)
    (pages : List (DomId × Fpn)) : Retired pages s (kernelRetires pages s) := by
  have hleft : s.onEntry (fun u => { u with list := u.list.filter fun e => !pages.contains (e.dom, e.fpn) }) =
      { s with entry := { s.entry with list := listWithout pages s.entry.list } } := rfl
  unfold Retired kernelRetires
  rw [hleft]
  dsimp only
  cases hwork : s.entry.work with
  | none => rfl
  | some w =>
    cases w with
    | component c =>
      have hdrop := dropComponent_dropped (s := { s with entry := { s.entry with list := listWithout pages s.entry.list } })
        hslots fun y hy => hregion c y hwork hy
      by_cases hpage : (c.dom, c.fpn) ∈ pages
      · have hcontains : pages.contains (c.dom, c.fpn) = true := List.contains_iff_mem.mpr hpage
        dsimp only
        rw [if_pos hcontains]
        cases hstage : c.stage with
        | firstUpdate =>
          rw [if_neg fun h => h.2.1 rfl]
        | combineUpdate =>
          rw [if_neg fun h => h.2.2 rfl]
        | reading id =>
          rw [if_pos ⟨hpage, nofun, nofun⟩]
          simpa only [hwork] using hdrop
        | writing data =>
          rw [if_pos ⟨hpage, nofun, nofun⟩]
          simpa only [hwork] using hdrop
      · have hcontains : ¬pages.contains (c.dom, c.fpn) = true := fun h => hpage (List.contains_iff_mem.mp h)
        dsimp only
        rw [if_neg hcontains, if_neg fun h => hpage h.1]
    | finalising x d f st rest =>
      cases st with
      | filling left out =>
        dsimp only
        by_cases hpage : (d, f) ∈ pages
        · rw [if_pos (List.contains_iff_mem.mpr hpage), if_pos hpage]
          have hnext : FinNext x rest { s with
                entry := { s.entry with list := listWithout pages s.entry.list }, back := s.back.admitted .liveFill }
              (advanceFin x rest (endWait .liveFill
                { s with entry := { s.entry with list := listWithout pages s.entry.list } })) :=
            advanceFin_next (s := { s with
              entry := { s.entry with list := listWithout pages s.entry.list }
              back := s.back.admitted .liveFill }) hlive x rest
          simpa only [hwork] using hnext
        · rw [if_neg fun h => hpage (List.contains_iff_mem.mp h), if_neg hpage]
      | half => rfl
      | keepHalf => rfl
      | retire => rfl
      | live => rfl
    | abandoning rest => rfl

theorem beginEntry_front (x : Option Custodian) (e : EntryRec) (st : FinStage) (rest : List (DomId × Fpn)) :
    (beginEntry x e st rest s).front = s.front := by
  cases st with
  | filling left out => cases left <;> rfl
  | half => rfl
  | keepHalf => rfl
  | retire => rfl
  | live => rfl

theorem raise_front (g : Flag) (s : State) : (raise g s).front = s.front := by
  unfold raise
  split <;> rfl

theorem advanceFin_front (x : Option Custodian) (pages : List (DomId × Fpn)) : (advanceFin x pages s).front = s.front := by
  induction pages with
  | nil => exact raise_front _ _
  | cons p pages ih =>
    unfold advanceFin
    split
    · exact ih
    · split
      · exact ih
      · exact beginEntry_front _ _ _ _

theorem dropComponent_front (c : CompOp) (s : State) :
    (dropComponent c s).front = s.front ∨ ∃ ph, (dropComponent c s).front = (setPhase c.tag ph s).front := by
  have hfront : (dropComponent c s).front = (refuse c.tag .denied .lifecycle s).front := rfl
  rw [hfront]
  cases hfind : findSlot s c.tag with
  | none => exact .inl (by rw [refuse, hfind])
  | some y => exact .inr ⟨_, by rw [Machine.refuse_eq s .denied .lifecycle hfind]; rfl⟩

/-- What retiring pages does to the slots: at most that of a component write in progress is answered. -/
theorem kernelRetires_slots (pages : List (DomId × Fpn)) (s : State) :
    (kernelRetires pages s).front = s.front ∨
      ∃ c ph, s.entry.work = some (.component c) ∧ (kernelRetires pages s).front = (setPhase c.tag ph s).front := by
  have hleft : s.onEntry (fun u => { u with list := u.list.filter fun e => !pages.contains (e.dom, e.fpn) }) =
      { s with entry := { s.entry with list := listWithout pages s.entry.list } } := rfl
  unfold kernelRetires
  rw [hleft]
  dsimp only
  split
  · next c hwork =>
    have hdrop {u : State} (h : u.front = s.front ∨ ∃ ph, u.front = (setPhase c.tag ph s).front) : u.front = s.front ∨
        ∃ (c : CompOp) (ph : Phase), s.entry.work = some (.component c) ∧ u.front = (setPhase c.tag ph s).front :=
      h.imp id fun ⟨ph, h⟩ => ⟨c, ph, hwork, h⟩
    split
    · split
      · exact hdrop (dropComponent_front c _)
      · exact hdrop (dropComponent_front c _)
      · exact .inl rfl
    · exact .inl rfl
  · split
    · exact .inl (advanceFin_front _ _)
    · exact .inl rfl
  · exact .inl rfl

/-- A transaction that is not a component write in progress keeps its slot while pages are retired. -/
theorem kernelRetires_slot {tag : Tag} {y : Slot} (hslots : SlotLaw s) (hy : findSlot s tag = some y)
    (hother : ∀ c, s.entry.work = some (.component c) → c.tag ≠ tag) (pages : List (DomId × Fpn)) :
    SlotLaw (kernelRetires pages s) ∧ findSlot (kernelRetires pages s) tag = some y := by
  obtain hfront | ⟨c, ph, hwork, hfront⟩ := kernelRetires_slots pages s
  · refine ⟨?_, ?_⟩
    · unfold SlotLaw
      rw [hfront]
      exact hslots
    · rw [findSlot_congr (s := s) (congrArg FrontPort.slots hfront), hy]
  · have hmoved := slotLaw_setPhase hslots c.tag ph
    refine ⟨?_, ?_⟩
    · unfold SlotLaw at hmoved ⊢
      rw [hfront]
      exact hmoved
    · rw [findSlot_congr (s := setPhase c.tag ph s) (congrArg FrontPort.slots hfront),
        findSlot_setPhase_other s ph (hother c hwork).symm, hy]

end Retiring

/-! ## The sender's answer -/

/-- A kernel merge is answered DONE, and reported HELD where it was held (R40). -/
theorem answer_merge {s : State} {tag : Tag} {y : Slot} (hslots : SlotLaw s) (hy : findSlot s tag = some y)
    (hr : y.region = some .map) (held : Bool) :
    (if held then reportHeld tag (respondDone tag s) else respondDone tag s) =
      { s.moveSlot tag .map (.responding .done zeroLine) with
        ev := if held then s.ev.take (txnReport y.txn .map .held .noReason) else s.ev } := by
  have hdone : respondDone tag s = s.moveSlot tag .map (.responding .done zeroLine) :=
    setPhase_of_slotLaw hslots hy hr _
  cases held with
  | false => exact hdone
  | true =>
    have hmoved : findSlot (respondDone tag s) tag = some { y with phase := .responding .done zeroLine } :=
      findSlot_setPhase_self s _ hy
    rw [if_pos rfl, reportHeld, hmoved, hdone]
    simp [report, State.onEv, refusalReport, txnReport, hr, State.moveSlot]

/-! ## In-place updates (R43) -/

theorem setLife_eq (d : DomId) (f : Fpn) (life : Lifecycle) (h : Held) : h.setLife d f life = h.lived d f life := by
  simp [Held.setLife, Held.lived, Held.holds, Page.isOf]

/-- Lifecycles written in place, change by change. -/
theorem foldl_setLife (s : State) (changes : List PartChange) :
    ∃ t : Translation, changes.foldl (fun s c => s.onXlat (.setLife c.dom c.fpn c.life)) s = { s with xlat := t } ∧
      t = { s.xlat with fixed := t.fixed, sets := t.sets } ∧
      (∀ i : Fin 16, t.fixed[i] = { s.xlat.fixed[i] with
        held := changes.foldl (fun h c => h.lived c.dom c.fpn c.life) s.xlat.fixed[i].held }) ∧
      ∀ i : Fin 256, t.sets[i] = { s.xlat.sets[i] with
        way0 := changes.foldl (fun h c => h.lived c.dom c.fpn c.life) s.xlat.sets[i].way0
        way1 := changes.foldl (fun h c => h.lived c.dom c.fpn c.life) s.xlat.sets[i].way1 } := by
  induction changes generalizing s with
  | nil => exact ⟨s.xlat, rfl, rfl, fun i => rfl, fun i => rfl⟩
  | cons c changes ih =>
    obtain ⟨t, heq, hrest, hfixed, hsets⟩ := ih (s.onXlat (.setLife c.dom c.fpn c.life))
    refine ⟨t, heq, hrest, fun i => ?_, fun i => ?_⟩
    · rw [hfixed]
      simp [State.onXlat, Translation.setLife, setLife_eq]
    · rw [hsets]
      simp [State.onXlat, Translation.setLife, setLife_eq]

/-! ## The report of a part update (R43, R105, R107, R109 to R113) -/

theorem partComplete_reported {s : State} (hlive : live s = true) (hslots : SlotLaw s)
    (hregion : ∀ c y, s.entry.work = some (.component c) → findSlot s c.tag = some y → y.region = some .key) :
    Reported s (partComplete s) := by
  unfold Reported partComplete
  cases hwork : s.entry.work with
  | none => rfl
  | some w =>
    cases w with
    | component c =>
      refine ⟨fun hgone => ?_, fun e y he hy => ⟨fun hstage => ?_, fun hstage => ?_⟩⟩
      · simp only [hgone]
        exact dropComponent_dropped hslots fun y hy => hregion c y hwork hy
      · simp only [he, hy, hstage]
        exact offerEntry_offers (c := { c with stage := .writing y.txn.data }) hslots hy (hregion c y hwork hy) nofun nofun
      · simp only [he, hy, hstage]
        exact offerEntry_offers (c := { c with stage := .reading none }) hslots hy (hregion c y hwork hy) nofun nofun
    | finalising x d f st rest =>
      refine ⟨?_, ?_, ?_⟩
      · rintro rfl
        dsimp only
        rw [raise_eq (s := removeEntry d f s) hlive, removeEntry_eq]
        exact advanceFin_next (s := { s with
          entry := { s.entry with list := listWithout [(d, f)] s.entry.list }
          ev := { s.ev with flags := s.ev.flags ||| Flag.entryAbandoned.mark } }) hlive x rest
      · rintro rfl
        dsimp only
        rw [removeEntry_eq]
        exact advanceFin_next (s := { s with entry := { s.entry with list := listWithout [(d, f)] s.entry.list } }) hlive x rest
      · rintro (rfl | rfl)
        · exact advanceFin_next hlive x rest
        · exact advanceFin_next hlive x rest
    | abandoning rest => exact advanceAbandon_next rest s

/-! ## The line write (R36) -/

/-- Settles O14: the line enters and the entry goes; then the merge's or the part update's own consequences. -/
theorem updateLineIsWritten : Obligations.UpdateLineIsWritten := by
  unfold Obligations.UpdateLineIsWritten
  intro k s sent u key hlive hslots hu hstate hkey hmay hsent hregion
  have hline : u.line = k := by simpa using List.find?_some hu
  have hexec : exec (.updateLineWrite k) s = .next (handOn u sent) := by
    show Host.Outcome.next (writeUpdate k s) = _
    simp only [writeUpdate, hu, hkey]
    rw [if_pos ⟨hlive, hstate, hmay⟩, sendUpdate, leaveUpdates_eq, hline, hsent]
    rfl
  have hsentLive : live sent = true := by rw [hsent]; exact hlive
  have hsentSlots : SlotLaw sent := by rw [hsent]; exact hslots
  have hwork : sent.entry = s.entry := by rw [hsent]
  have hfind (tag : Tag) : findSlot sent tag = findSlot s tag := by rw [hsent]; rfl
  refine ⟨fun tag y hit horigin hy hr hhit => ?_, fun p horigin => ?_⟩
  · have hdemap : (changedPairs u.line u.stored u.result).foldl (fun s p => pageDemap p.1 p.2 s) sent = sent.demapped hit := by
      rw [foldl_pageDemap hsentLive, hline, hhit]
      congr 1
      funext x
      rw [Bool.eq_iff_iff, decide_eq_true_eq, List.contains_iff_mem]
      rfl
    have hm : sent.demapped hit = { sent with
        xlat := { s.xlat with fixed := (sent.demapped hit).xlat.fixed, sets := (sent.demapped hit).xlat.sets }
        ev := { s.ev with flags := s.ev.flags ||| LockLostMark hit s } } := by
      rw [hsent]
      rfl
    have hmSlots : SlotLaw (sent.demapped hit) := hsentSlots
    have hmy : findSlot (sent.demapped hit) tag = some y := (hfind tag).trans hy
    have hother : ∀ c, (sent.demapped hit).entry.work = some (.component c) → c.tag ≠ tag := by
      rintro c hc rfl
      have hcomponent : s.entry.work = some (.component c) := hwork ▸ hc
      exact Region.noConfusion (Option.some.inj ((hregion c y hcomponent hy).symm.trans hr))
    obtain ⟨hm'Slots, hm'y⟩ := kernelRetires_slot hmSlots hmy hother u.removes
    refine ⟨sent.demapped hit, kernelRetires u.removes (sent.demapped hit), hm, ?_, ?_, ?_⟩
    · have hspec := demapped_spec hit sent
      unfold Demapped at hspec ⊢
      rw [show sent.xlat = s.xlat by rw [hsent]] at hspec
      exact hspec
    · refine kernelRetires_retired (s := sent.demapped hit) hsentLive hmSlots (fun c y hc hy => ?_) u.removes
      exact hregion c y (hwork ▸ hc) ((hfind c.tag).symm.trans hy)
    · rw [hexec, handOn, horigin]
      dsimp only
      rw [hdemap, answer_merge hm'Slots hm'y hr]
  · obtain ⟨t, heq, hrest, hfixed, hsets⟩ := foldl_setLife sent p.changes
    have hxlat : sent.xlat = s.xlat := by rw [hsent]
    rw [hxlat] at hrest hfixed hsets
    refine ⟨{ sent with xlat := t }, _, ?_, hfixed, hsets, hexec, ?_⟩
    · rw [← hrest]
    · rw [handOn, horigin]
      dsimp only
      rw [heq]
      refine partComplete_reported (s := { sent with xlat := t }) hsentLive hsentSlots fun c y hc hy => ?_
      exact hregion c y (hwork ▸ hc) ((hfind c.tag).symm.trans hy)

end Sys2Proof.Machine

/-! PROOFS. What stops at mains loss and RST, what begins at their end, and first battery connection (MainDomainStops,
MainDomainReturns, FirstConnection). -/

namespace Sys2Proof.Machine

/-! ## The write bursts that had begun (R139) -/

/-- A line write leaves a byte that none of its unmasked bytes is at. -/
theorem Memory.readByte_writeLine_of_masked {m : Memory} (hwf : m.wf) (b : BackLine) (l : Line) (masks : Marks) {a : Nat}
    (ha : ∀ i : Fin 64, a = backAddr b + i.val → masks.getLsbD i.val = true) :
    (m.writeLine b l masks).readByte a = m.readByte a := by
  by_cases hin : backAddr b ≤ a ∧ a < backAddr b + 64
  · obtain ⟨hlow, hhigh⟩ := hin
    obtain ⟨i, rfl⟩ : ∃ i : Fin 64, a = backAddr b + i.val := ⟨⟨a - backAddr b, by omega⟩, by simp; omega⟩
    rw [Memory.readByte_writeLine_in hwf, if_pos (ha i rfl)]
  · exact Memory.readByte_writeLine_out hwf b l masks (by omega)

/-- Each write burst that had begun is driven, in their order. -/
theorem finishBursts_cons (b : BackCtl) (x : Burst) (xs : List Burst) (m : Memory) :
    finishBursts { b with bursts := x :: xs } m = finishBursts { b with bursts := xs }
      (if x.req.write = true ∧ x.start ≤ b.clock then m.writeLine x.req.line x.req.data x.req.masks else m) := by
  by_cases hbegun : x.req.write = true ∧ x.start ≤ b.clock
  · rw [if_pos hbegun, finishBursts, List.filter_cons_of_pos (by simpa using hbegun)]
    rfl
  · rw [if_neg hbegun, finishBursts, List.filter_cons_of_neg (by simpa using hbegun)]
    rfl

theorem finishBursts_append (b : BackCtl) (xs ys : List Burst) (m : Memory) :
    finishBursts { b with bursts := xs ++ ys } m =
      finishBursts { b with bursts := ys } (finishBursts { b with bursts := xs } m) := by
  simp only [finishBursts, List.filter_append, List.foldl_append]

/-- A byte that no write burst that had begun is at stays. -/
theorem readByte_finishBursts (b : BackCtl) (xs : List Burst) {m : Memory} (hwf : m.wf) {a : Nat}
    (ha : ∀ x ∈ xs, ∀ i, ¬Covers b x i a) : (finishBursts { b with bursts := xs } m).readByte a = m.readByte a := by
  induction xs generalizing m with
  | nil => rfl
  | cons x xs ih =>
    have hrest := fun y hy => ha y (List.mem_cons_of_mem x hy)
    rw [finishBursts_cons]
    split
    · next hbegun =>
      rw [ih (Memory.writeLine_wf hwf _ _ _) hrest, Memory.readByte_writeLine_of_masked hwf]
      intro i hi
      by_contra hmask
      exact ha x List.mem_cons_self i ⟨hbegun.1, hbegun.2, hi, by simpa using hmask⟩
    · exact ih hwf hrest

/-- A byte holds the data of the last write burst that had begun at it. -/
theorem readByte_finishBursts_last {b : BackCtl} {before after : List Burst} {x : Burst} {i : Fin 64} {a : Nat} {m : Memory}
    (hwf : m.wf) (hx : Covers b x i a) (hafter : ∀ y ∈ after, ∀ j, ¬Covers b y j a) :
    (finishBursts { b with bursts := before ++ x :: after } m).readByte a = x.req.data[i] := by
  obtain ⟨hwrite, hbegun, rfl, hmask⟩ := hx
  have hwf' : (finishBursts { b with bursts := before } m).wf := finishBursts_wf _ hwf
  rw [finishBursts_append, finishBursts_cons, if_pos ⟨hwrite, hbegun⟩,
    readByte_finishBursts b after (Memory.writeLine_wf hwf' _ _ _) hafter, Memory.readByte_writeLine_in hwf', hmask]
  rfl

/-! ## What stops (R92, R100, R139, R177, R179) -/

/-- The fields that mains loss and RST leave alike in the state that stops. -/
theorem mainStopped_of_stopMain {s u : State} (hfront : u.front = .reset s.seeds.pab) (hxlat : u.xlat = .reset)
    (hmaps : u.maps = .reset) (hentry : u.entry = (mainReset s).entry)
    (hback : u.back = .restart s.back.timing s.back.clock s.back.nextId none) (hrun : u.run = { s.run with counter := 0 })
    (hdoms : u.doms = s.doms.map DomRec.loseRun) (hseeds : u.seeds = s.seeds) (hcabinet : u.cab.cabinet = s.cab.cabinet)
    (hsub : u.cab.sub = s.cab.sub) (hscrub : u.cab.scrubOn = s.cab.scrubOn) (hbg : u.cab.bg = s.cab.bg.stop)
    (hlive : live u = false) : MainStopped s u := by
  have halert : alertOutput u = false := by rw [alertOutput, hlive, Bool.false_and]
  have hrec : ∀ d : Fin 64, u.doms[d] = (s.doms[d]).loseRun := fun d => by rw [hdoms]; simp
  have hkeeps : ∀ {α : Type} (f : EntryUnit → α), f u.entry = f (mainReset s).entry := fun f => congrArg f hentry
  refine ⟨congrArg FrontPort.slots hfront, congrArg FrontPort.held hfront, hxlat, hmaps, hkeeps EntryUnit.waiting,
    hkeeps EntryUnit.work, hkeeps fun x => x.windowA.state, hkeeps fun x => x.windowB.state, hkeeps EntryUnit.list,
    hkeeps EntryUnit.domain, hkeeps EntryUnit.limit, hkeeps EntryUnit.switchA, hkeeps EntryUnit.switchB,
    congrArg BackCtl.queue hback, congrArg BackCtl.service hback, congrArg BackCtl.waiting hback,
    congrArg BackCtl.bursts hback, (congrArg BackCtl.timing hback).trans rfl, congrArg BackCtl.startUp hback, hrun,
    fun d hd => ?_, fun d hd => ?_, hseeds, hcabinet, hsub, hscrub, congrArg Background.op hbg, congrArg Background.next hbg,
    congrArg Background.completed hbg, hlive, halert⟩
  · rw [hrec, DomRec.loseRun, if_pos hd]
  · rw [hrec, DomRec.loseRun, if_neg hd]

/-- Settles O41: both leave the main domain at its reset values; under RST the bursts that had begun are driven. -/
theorem mainDomainStops : Obligations.MainDomainStops := by
  unfold Obligations.MainDomainStops
  intro s hmains
  refine ⟨⟨losePower s, congrArg Host.Outcome.next (if_pos hmains), ?_, rfl, rfl, rfl, ?_, fun i hi => ?_⟩,
    fun hrst hwf => ⟨assertReset s, congrArg Host.Outcome.next (if_pos ⟨hmains, hrst⟩), ?_, hmains, rfl, rfl,
      fun a ha => ?_, fun before x after i a hbursts hx hafter => ?_⟩⟩
  · exact mainStopped_of_stopMain rfl rfl rfl rfl rfl rfl rfl rfl rfl rfl rfl rfl (by simp [live, losePower])
  · simp [losePower, Monitor.mainsLost]
  · have : (0 : Nat) ≠ i.val := fun h => hi (Fin.ext h.symm)
    simp [losePower, Monitor.mainsLost, this]
  · exact mainStopped_of_stopMain rfl rfl rfl rfl rfl rfl rfl rfl rfl rfl rfl rfl (by simp [live, assertReset])
  · exact readByte_finishBursts s.back s.back.bursts hwf ha
  · have := readByte_finishBursts_last (b := s.back) (before := before) (after := after) (m := s.mem) hwf hx hafter
    rwa [← hbursts] at this

/-! ## What begins (R140, R178, R179, R190, R192, R199) -/

theorem cabState_atReturn (c : CabState) : c.atReturn = if c = .ready then .restore else c := by
  cases c <;> rfl

/-- The main domain begins with empty blocks, the cabinet moved and the events of the return. -/
theorem beginMain_returned (powerUp : Bool) (strap : BitVec 2) {s : State} (hlive : live s = true) :
    MainReturned powerUp strap s (beginMain powerUp strap s) := by
  have hmains : s.cab.power = .mains := by
    rw [live, Bool.and_eq_true] at hlive
    exact eq_of_beq hlive.1
  refine ⟨⟨rfl, rfl, rfl, rfl, rfl, rfl, rfl, rfl, rfl, rfl, rfl, rfl, rfl, rfl, rfl, rfl, rfl, rfl, rfl, rfl, rfl, rfl,
    rfl, rfl, rfl, rfl, hmains, cabState_atReturn _, fun _ => rfl, rfl, rfl⟩, hlive, ?_, ?_, ?_, ?_, rfl, rfl, rfl, rfl, rfl⟩
  · show (if s.cab.cabinet = .clearing then s.cab.bg.start .mapClear else s.cab.bg.stop).op = _
    split <;> rfl
  · show (if s.cab.cabinet = .clearing then s.cab.bg.start .mapClear else s.cab.bg.stop).next = _
    split <;> rfl
  · show (if s.cab.cabinet = .clearing then s.cab.bg.start .mapClear else s.cab.bg.stop).completed = _
    split <;> rfl
  · show (EventUnit.atReturn s.mon.record.valid).flags = _
    cases s.mon.record.valid <;> rfl

/-- Under RST the blocks are empty and held, with nothing to scrub or to clear. -/
theorem holdMain_empty (strap : BitVec 2) {s : State} (hmains : s.cab.power = .mains) (hrst : s.cab.rst = true) :
    MainEmpty true strap s (holdMain strap s) ∧ live (holdMain strap s) = false ∧
      alertOutput (holdMain strap s) = false ∧ (holdMain strap s).cab.bg.op = .idle ∧
      (holdMain strap s).cab.bg.next = 0 ∧ (holdMain strap s).cab.bg.completed = 0 := by
  have hlive : live (holdMain strap s) = false := by simp [live, holdMain, StateUnit.atReturn, hrst]
  refine ⟨⟨rfl, rfl, rfl, rfl, rfl, rfl, rfl, rfl, rfl, rfl, rfl, rfl, rfl, rfl, rfl, rfl, rfl, rfl, rfl, rfl, rfl, rfl,
    rfl, rfl, rfl, rfl, hmains, cabState_atReturn _, fun _ => rfl, rfl, rfl⟩, hlive, ?_, rfl, rfl, rfl⟩
  rw [alertOutput, hlive, Bool.false_and]

/-- Mains return, by the level of the RST line (R164, R178; log entry 25). -/
theorem returnPower_returns (strap : BitVec 2) (s : State) : (returnPower strap s).cab.rst = s.cab.rst ∧
    (s.cab.rst = false → MainReturned true strap s (returnPower strap s)) ∧
    (s.cab.rst = true → MainEmpty true strap s (returnPower strap s) ∧ live (returnPower strap s) = false ∧
      alertOutput (returnPower strap s) = false ∧ (returnPower strap s).cab.bg.op = .idle ∧
      (returnPower strap s).cab.bg.next = 0 ∧ (returnPower strap s).cab.bg.completed = 0) := by
  cases hrst : s.cab.rst with
  | true =>
    have hdef : returnPower strap s = holdMain strap (s.onCab fun c => { c with power := .mains }) := if_pos hrst
    rw [hdef]
    exact ⟨hrst, fun h => absurd h Bool.noConfusion,
      fun _ => holdMain_empty (s := s.onCab fun c => { c with power := .mains }) strap rfl hrst⟩
  | false =>
    have hdef : returnPower strap s = beginMain true strap (s.onCab fun c => { c with power := .mains }) :=
      if_neg (by simp [hrst])
    have hlive : live (s.onCab fun c => { c with power := .mains }) = true := by simp [live, State.onCab, hrst]
    rw [hdef]
    exact ⟨hrst, fun _ => beginMain_returned true strap hlive, fun h => absurd h Bool.noConfusion⟩

/-- Settles O42: mains return and the end of RST begin the main domain; the other rows change nothing but the level of
RST. -/
theorem mainDomainReturns : Obligations.MainDomainReturns := by
  unfold Obligations.MainDomainReturns
  intro s strap
  obtain ⟨hrst, hstarts, hheld⟩ := returnPower_returns strap s
  refine ⟨fun hbattery => ⟨_, congrArg Host.Outcome.next (if_pos hbattery), hrst, hstarts, hheld⟩,
    fun hmains hrst => ⟨endReset strap s, congrArg Host.Outcome.next (if_pos ⟨hmains, hrst⟩), ?_, rfl⟩,
    fun h => congrArg Host.Outcome.next (if_neg fun ⟨hmains, hlow⟩ => ?_),
    fun h => congrArg Host.Outcome.next (if_neg fun ⟨hmains, hhigh⟩ => ?_),
    fun h => congrArg Host.Outcome.next (if_neg (by simp [h])), fun h => congrArg Host.Outcome.next (if_neg (by simp [h]))⟩
  · exact beginMain_returned (s := setRst false s) _ strap (by simp [live, setRst, State.onCab, hmains])
  · obtain hbattery | hup := h <;> simp_all
  · obtain hbattery | hdown := h <;> simp_all

/-! ## First battery connection (R180) -/

/-- Settles O43: the cold state with PGOOD low, and its mains return with PGOOD high. -/
theorem firstConnection : Obligations.FirstConnection := by
  unfold Obligations.FirstConnection
  intro s strap
  obtain ⟨hrst, hstarts, hheld⟩ := returnPower_returns strap (coldState s)
  have hinputs : (returnPower strap (coldState s)).pending = s.pending ∧
      (returnPower strap (coldState s)).arrivals = s.arrivals := by
    unfold returnPower
    split <;> exact ⟨rfl, rfl⟩
  refine ⟨coldState s, returnPower strap (coldState s), rfl, rfl, rfl, rfl, rfl, rfl, rfl, fun d => ?_, rfl, (by show pabBase SeedStore.reset.pab = _; decide),
    fun d => ?_, rfl, rfl, rfl, rfl, rfl, fun c => ?_, fun i => ?_, rfl, rfl, rfl, rfl, rfl, rfl, rfl, rfl, rfl, rfl, rfl,
    rfl, rfl, rfl, rfl, rfl, rfl, rfl, rfl, rfl, rfl, rfl, rfl, rfl, rfl, rfl, rfl, rfl, rfl, rfl, rfl, rfl, rfl,
    hinputs.1, hinputs.2, hrst, hstarts, hheld⟩
  · simp [coldState, SeedStore.reset]
  · simp [coldState, State.reset, DomRec.reset]
  · simp [coldState, State.reset, Monitor.reset, Channel.reset]
  · simp [coldState, State.reset, Monitor.reset, Mesh.reset]

end Sys2Proof.Machine

/-! PROOFS. Detections: which of the monitor's marks a detection's row takes, what an alarm makes of the record, and what a
zeroisation makes of keys and main domain (AlarmDestroysKeys, AlarmReachesMainDomain, DetectionElsewhere). -/

namespace Sys2Proof.Machine

/-! ## A detection's row -/

/-- A detection's row takes its mark from the monitor, which leaves `t`, and detects there; ZEROISE then answers (R152, R154,
R155). -/
structure Detected (c : Instr) (cause : Cause) (s t u : State) : Prop where
  taken : DetectionTaken c s.mon t.mon
  record : t.mon.record = s.mon.record
  testSet : t.mon.testSet = s.mon.testSet
  before : t = { s with mon := t.mon, link := t.link }
  after : u = { detect cause t with link := u.link }
  zeroise : ∀ f, c = .zeroise f → t.link = { s.link with acked := true } ∧
    u.link = { (detect cause t).link with slot := .ready .accepted [] }
  other : (∀ f, c ≠ .zeroise f) → t.link = s.link ∧ u = detect cause t

/-- A row that takes a mark and detects, and is not ZEROISE. -/
theorem detected_of_row {c : Instr} {cause : Cause} {s : State} {m : Monitor} (hrow : ∀ f, c ≠ .zeroise f)
    (htaken : DetectionTaken c s.mon m) (hrecord : m.record = s.mon.record) (htest : m.testSet = s.mon.testSet) :
    Detected c cause s { s with mon := m } (detect cause { s with mon := m }) where
  taken := htaken
  record := hrecord
  testSet := htest
  before := rfl
  after := rfl
  zeroise f hc := absurd hc (hrow f)
  other _ := ⟨rfl, rfl⟩

theorem exec_of_detects {c : Instr} {cause : Cause} {s : State} (hpulse : PulseTaken s) (h : Detects c cause s) :
    ∃ t u, exec c s = .next u ∧ Detected c cause s t u := by
  have hafter := afterPulse_of_taken hpulse
  cases c
  case channelDetection i =>
    obtain ⟨high, hmark, rfl⟩ := h
    refine ⟨_, _, ?_, detected_of_row (m := s.mon.onChannel i fun x => { x with detected := none }) (by simp)
      ⟨rfl, fun j => ?_, fun j => (if_neg (by simp)).symm⟩ rfl rfl⟩
    · show Host.Outcome.next (detectChannel i (afterPulse s)) = _
      rw [hafter, detectChannel, hmark]
      rfl
    · by_cases hj : j = i
      · rw [hj, if_pos rfl]
        exact s.mon.onChannel_self i _
      · rw [if_neg (by simpa using Ne.symm hj)]
        exact s.mon.onChannel_of_ne hj _
  case meshDetection i =>
    obtain ⟨hmark, rfl⟩ := h
    refine ⟨_, _, ?_, detected_of_row (m := s.mon.onMesh i fun x => { x with detected := false }) (by simp)
      ⟨rfl, fun j => (if_neg (by simp)).symm, fun j => ?_⟩ rfl rfl⟩
    · show Host.Outcome.next (detectMesh i (afterPulse s)) = _
      rw [hafter, detectMesh, if_pos hmark]
      rfl
    · by_cases hj : j = i
      · rw [hj, if_pos rfl]
        exact s.mon.onMesh_self i _
      · rw [if_neg (by simpa using Ne.symm hj)]
        exact s.mon.onMesh_of_ne hj _
  case lidRegistered isOpen =>
    obtain ⟨rfl, hshut, rfl⟩ := h
    refine ⟨_, _, ?_, detected_of_row (m := { s.mon with lid := { on := true, count := 0 } }) (by simp)
      ⟨rfl, fun j => (if_neg (by simp)).symm, fun j => (if_neg (by simp)).symm⟩ rfl rfl⟩
    show Host.Outcome.next (registerLid true (afterPulse s)) = _
    rw [hafter, registerLid, if_pos ⟨rfl, hshut⟩]
    rfl
  case panelRegistered pressed =>
    obtain ⟨rfl, hreleased, rfl⟩ := h
    refine ⟨_, _, ?_, detected_of_row (m := { s.mon with panel := { on := true, count := 0 } }) (by simp)
      ⟨rfl, fun j => (if_neg (by simp)).symm, fun j => (if_neg (by simp)).symm⟩ rfl rfl⟩
    show Host.Outcome.next (registerPanel true (afterPulse s)) = _
    rw [hafter, registerPanel, if_pos ⟨rfl, hreleased⟩]
    rfl
  case zeroise f =>
    obtain ⟨⟨hlive, haddr, hargs⟩, rfl⟩ := h
    refine ⟨acknowledge true s, putAnswer (reply .accepted (detect .command (acknowledge true s))), ?_,
      ⟨⟨rfl, fun j => (if_neg (by simp)).symm, fun j => (if_neg (by simp)).symm⟩, rfl, rfl, rfl, rfl,
        fun _ _ => ⟨rfl, rfl⟩, fun hrow => absurd rfl (hrow f)⟩⟩
    show Host.Outcome.next (takeFrame f 0 _ (afterPulse s)) = _
    rw [hafter, takeFrame, if_pos (addressed_iff.mpr ⟨hlive, haddr⟩), if_pos (by rw [hargs]; rfl)]
  all_goals exact h.elim

/-- What an alarm or a test writes into record and test set, beside what its row took. -/
theorem DetectionTaken.recorded {c : Instr} {m m' : Monitor} (h : DetectionTaken c m m') (r : TamperRecord) (x : BitVec 21) :
    DetectionTaken c m { m' with record := r, testSet := x } := by
  obtain ⟨hrest, hchannels, hmeshes⟩ := h
  exact ⟨congrArg (fun m : Monitor => { m with record := r, testSet := x }) hrest, hchannels, hmeshes⟩

theorem DetectionTaken.seconds {c : Instr} {m m' : Monitor} (h : DetectionTaken c m m') : m'.seconds = m.seconds :=
  (congrArg Monitor.seconds h.1).trans rfl

/-! ## The alarm's record (R157) -/

/-- An alarm raises TAMPER on mains where it makes the record valid. -/
theorem recordAlarm_eq (cause : Cause) (s : State) : recordAlarm cause s = { s with
    mon := { s.mon with record := s.mon.record.after cause s.mon.seconds }
    ev := { s.ev with flags := s.ev.flags |||
      (if live s = true ∧ s.mon.record.valid = false then Flag.tamper.mark else 0#11) } } := by
  cases hvalid : s.mon.record.valid <;> cases hlive : live s <;>
    simp [recordAlarm, raiseIf, raise, State.onMon, State.onEv, EventUnit.raise, hvalid, hlive,
      show live { s with mon := { s.mon with record := s.mon.record.after cause s.mon.seconds } } = live s from rfl]

theorem tamperRecord_after_first {r : TamperRecord} (h : r.valid = false) (cause : Cause) (now : BitVec 32) :
    r.after cause now = { valid := true, first := some cause, time := now, causes := cause.mark, further := 0#8 } :=
  if_neg (by simp [h])

theorem tamperRecord_after_further {r : TamperRecord} (h : r.valid = true) (cause : Cause) (now : BitVec 32) :
    r.after cause now = { r with causes := r.causes ||| cause.mark, further := (r.after cause now).further } ∧
      (r.after cause now).further.toNat = min 255 (r.further.toNat + 1) := by
  have hdef : r.after cause now = { r with
      causes := r.causes ||| cause.mark, further := if r.further = 255#8 then 255#8 else r.further + 1#8 } := if_pos h
  rw [hdef]
  refine ⟨rfl, ?_⟩
  dsimp only
  split
  · next hfull => rw [hfull]; rfl
  · next hmore => bv_omega

/-! ## A detection by the cabinet state -/

theorem detect_blank {cause : Cause} {s : State} (h : s.cab.cabinet = .blank) :
    detect cause s = { s with mon := { s.mon with testSet := s.mon.testSet ||| cause.mark } } :=
  if_neg (by simp [armed, h])

theorem detect_zeroed {cause : Cause} {s : State} (h : s.cab.cabinet = .zeroed) : detect cause s = recordAlarm cause s := by
  rw [detect, if_pos (by simp [armed, h]), alarm]
  exact if_pos h

theorem detect_keyed {cause : Cause} {s : State} (hblank : s.cab.cabinet ≠ .blank) (hzeroed : s.cab.cabinet ≠ .zeroed) :
    detect cause s = zeroiseCabinet (recordAlarm cause s) := by
  rw [detect, if_pos (by simpa [armed] using hblank), alarm]
  exact if_neg hzeroed

/-- Settles O39: in BLANK the test set takes the cause, in ZEROED the record does; a row without a detection is shown by its
definition. -/
theorem detectionElsewhere : Obligations.DetectionElsewhere := by
  unfold Obligations.DetectionElsewhere
  intro c s hpulse
  have hafter := afterPulse_of_taken hpulse
  refine ⟨fun cause hdetects hcab => ?_, ?_, ?_, ?_, ?_⟩
  · obtain ⟨t, u, hexec, h⟩ := exec_of_detects hpulse hdetects
    have hcabinet : t.cab = s.cab := by rw [h.before]
    have hlive : live t = live s := by rw [live, live, hcabinet]
    have hev : t.ev = s.ev := by rw [h.before]
    have hother (hlink : (detect cause t).link = t.link) : (∀ f, c ≠ .zeroise f) → u.link = s.link := fun hrow => by
      obtain ⟨hkept, hu⟩ := h.other hrow
      rw [hu, hlink, hkept]
    have hzeroise (hlink : (detect cause t).link = t.link) :
        ∀ f, c = .zeroise f → u.link = { s.link with slot := .ready .accepted [], acked := true } := fun f hc => by
      obtain ⟨hacked, hanswer⟩ := h.zeroise f hc
      rw [hanswer, hlink, hacked]
    obtain hblank | hzeroed := hcab
    · have hdetect := detect_blank (cause := cause) (s := t) (by rw [hcabinet, hblank])
      have hmon : u.mon = { t.mon with testSet := t.mon.testSet ||| cause.mark } := by rw [h.after, hdetect]
      have hlink : (detect cause t).link = t.link := by rw [hdetect]
      refine ⟨u, hexec, ?_, ?_, hzeroise hlink, hother hlink, fun _ => ⟨?_, ?_, ?_⟩, fun hz => by simp [hblank] at hz⟩
      · rw [h.after, hdetect, h.before]
      · rw [hmon]
        exact h.taken.recorded _ _
      · rw [hmon, h.testSet]
      · rw [hmon, h.record]
      · rw [h.after, hdetect, ← hev]
    · have hdetect := (detect_zeroed (cause := cause) (s := t) (by rw [hcabinet, hzeroed])).trans (recordAlarm_eq cause t)
      have hmon : u.mon = { t.mon with record := s.mon.record.after cause s.mon.seconds } := by
        rw [h.after, hdetect, h.record, h.taken.seconds]
      have hlink : (detect cause t).link = t.link := by rw [hdetect]
      refine ⟨u, hexec, ?_, ?_, hzeroise hlink, hother hlink, fun hb => by simp [hzeroed] at hb,
        fun _ => ⟨?_, ?_, fun hvalid => ?_, fun hvalid => ?_⟩⟩
      · rw [h.after, hdetect, h.before]
      · rw [hmon]
        exact h.taken.recorded _ _
      · rw [hmon, h.testSet]
      · rw [h.after, hdetect, hlive, h.record, hev]
      · rw [hmon]
        exact tamperRecord_after_first hvalid _ _
      · rw [hmon]
        exact tamperRecord_after_further hvalid _ _
  · rintro isOpen rfl hstays
    show Host.Outcome.next (registerLid isOpen (afterPulse s)) = _
    rw [hafter, registerLid, if_neg]
    · rfl
    · rintro ⟨hopen, hshut⟩
      simp [hopen, hshut] at hstays
  · rintro pressed rfl hstays
    show Host.Outcome.next (registerPanel pressed (afterPulse s)) = _
    rw [hafter, registerPanel, if_neg]
    · rfl
    · rintro ⟨hpressed, hreleased⟩
      simp [hpressed, hreleased] at hstays
  · rintro i rfl hnone
    show Host.Outcome.next (detectChannel i (afterPulse s)) = _
    rw [hafter, detectChannel, hnone]
  · rintro i rfl hnone
    show Host.Outcome.next (detectMesh i (afterPulse s)) = _
    rw [hafter, detectMesh, if_neg (ne_true_of_eq_false hnone)]


/-! ## The windows' transactions at a zeroisation (R167) -/

section Refusing

variable {s : State}

/-- A slot as a zeroisation leaves it. -/
def Slot.refusedUnready (x : Slot) : Slot := { x with phase := .responding .unready zeroLine }

/-- Transactions refused one after another: each one's slot is RESPONDING, and each is reported. -/
theorem foldl_refuse (xs : List Slot) (hfound : ∀ x ∈ xs, findSlot s x.txn.tag = some x)
    (hdistinct : (xs.map fun x => x.txn.tag).Nodup) :
    (xs.map fun x => x.txn.tag).foldl (fun s tag => refuse tag .unready .noReason s) s = { s with
      front := { s.front with
        slots := s.front.slots.map fun y => if xs.any (fun x => x.txn.tag == y.txn.tag) then y.refusedUnready else y }
      ev := (xs.map unreadyReport).foldl (fun e r => e.take r) s.ev } := by
  induction xs generalizing s with
  | nil => simp
  | cons x xs ih =>
    obtain ⟨hfresh, hrest⟩ := List.nodup_cons.mp hdistinct
    have hstep : refuse x.txn.tag .unready .noReason s =
        report (unreadyReport x) (setPhase x.txn.tag (.responding .unready zeroLine) s) :=
      refuse_eq s .unready .noReason (hfound x List.mem_cons_self)
    have hfound' : ∀ y ∈ xs, findSlot (refuse x.txn.tag .unready .noReason s) y.txn.tag = some y := fun y hy => by
      have hne : y.txn.tag ≠ x.txn.tag := fun heq => hfresh (List.mem_map.mpr ⟨y, hy, heq⟩)
      rw [hstep]
      exact (findSlot_setPhase_other s _ hne).trans (hfound y (List.mem_cons_of_mem x hy))
    rw [List.map_cons, List.foldl_cons, ih hfound' hrest, hstep]
    have hslots : (setPhase x.txn.tag (.responding .unready zeroLine) s).front.slots.map (fun y =>
          if xs.any (fun z => z.txn.tag == y.txn.tag) then y.refusedUnready else y) =
        s.front.slots.map fun y => if (x :: xs).any (fun z => z.txn.tag == y.txn.tag) then y.refusedUnready else y := by
      show (s.front.slots.map _).map _ = _
      rw [List.map_map]
      refine List.map_congr_left fun y _ => ?_
      by_cases htag : y.txn.tag = x.txn.tag
      · by_cases hrepeat : ∃ z ∈ xs, z.txn.tag = x.txn.tag <;> simp [htag, hrepeat, Slot.refusedUnready]
      · simp [htag, Ne.symm htag]
    show ({ s with front := _, ev := _ } : State) = _
    exact congrArg (fun slots => ({ s with
      front := { s.front with slots := slots }
      ev := ((x :: xs).map unreadyReport).foldl (fun e r => e.take r) s.ev } : State)) hslots

/-- Every window transaction whose status is not decided is answered UNREADY and reported, the others stay. -/
theorem refuseWindows_eq (hslots : SlotLaw s) : refuseWindows s = { s with
    front := { s.front with slots := s.front.slots.map fun y => if y.cutOff then y.refusedUnready else y }
    ev := ((s.front.slots.filter Slot.cutOff).map unreadyReport).foldl (fun e r => e.take r) s.ev } := by
  have hmem : ∀ x ∈ s.front.slots.filter Slot.cutOff, x ∈ s.front.slots := fun x hx => (List.mem_filter.mp hx).1
  rw [refuseWindows, foldl_refuse _ (fun x hx => findSlot_of_mem hslots (hmem x hx))
    (hslots.2.sublist (List.filter_sublist.map _))]
  have hcut : s.front.slots.map (fun y => if (s.front.slots.filter Slot.cutOff).any (fun x => x.txn.tag == y.txn.tag)
      then y.refusedUnready else y) = s.front.slots.map fun y => if y.cutOff then y.refusedUnready else y := by
    refine List.map_congr_left fun y hy => ?_
    have hiff : (s.front.slots.filter Slot.cutOff).any (fun x => x.txn.tag == y.txn.tag) = true ↔ y.cutOff = true := by
      rw [List.any_eq_true]
      refine ⟨fun ⟨x, hx, htag⟩ => ?_, fun hcut => ⟨y, List.mem_filter.mpr ⟨hy, hcut⟩, beq_self_eq_true _⟩⟩
      obtain ⟨hx, hcut⟩ := List.mem_filter.mp hx
      rwa [eq_of_findSlot hslots (findSlot_of_mem hslots hx) hy (eq_of_beq htag).symm]
    simp only [hiff]
  rw [hcut]

/-- A slot's tag finds it as the change leaves it. -/
theorem findSlot_map {g : Slot → Slot} (hg : ∀ y, (g y).txn = y.txn) {t : State} (ht : t.front.slots = s.front.slots.map g)
    (tag : Tag) : findSlot t tag = (findSlot s tag).map g := by
  have hsame : ((fun x : Slot => x.txn.tag == tag) ∘ g) = fun x => x.txn.tag == tag := by
    funext y
    simp [hg]
  rw [findSlot, ht, List.find?_map, hsame]
  rfl

end Refusing

/-- A flag that is raised is set, and stays set when others are raised. -/
theorem mark_of_raised (f m : BitVec 11) : (f ||| m) &&& m = m := by
  ext i hi
  simp
  tauto

theorem mark_kept {f m : BitVec 11} (h : f &&& m = m) (g : BitVec 11) : (f ||| g) &&& m = m := by
  have hand : (f ||| g) &&& m = (f &&& m) ||| (g &&& m) := by
    ext i hi
    simp [Bool.and_or_distrib_right]
  rw [hand, h]
  ext i hi
  simp

/-- A flag once set stays set through reports. -/
theorem flag_foldl_take {e : EventUnit} {m : BitVec 11} (h : e.flags &&& m = m) (rs : List Report) :
    (rs.foldl (fun e r => e.take r) e).flags &&& m = m := by
  induction rs generalizing e with
  | nil => exact h
  | cons r rs ih =>
    exact ih (mark_kept h _)

/-! ## The main domain at a zeroisation (R166) -/

/-- The main-domain blocks as a zeroisation leaves them, before the windows' transactions are answered. -/
def State.mainCleared (s : State) : State := { s with
  xlat := { s.xlat with
    fixed := s.xlat.fixed.map FixedEntry.drop, sets := s.xlat.sets.map SetRow.drop, walks := [], waiting := [] }
  maps := .reset
  entry := { s.entry with waiting := [], work := none }
  link := (answerLock .state s).link
  back := { s.back with waiting := s.back.waiting.filter (survivesAlarm s) }
  cab := { s.cab with bg := if s.cab.sub = .scrubbing then s.cab.bg.start .scrub else s.cab.bg.stop }
  ev := { s.ev with flags := s.ev.flags ||| LockLostMark (fun _ => true) s } }

theorem clearMainDomain_eq {s : State} (hlive : live s = true) : clearMainDomain s = refuseWindows s.mainCleared := by
  rw [clearMainDomain, allDemap_eq hlive]
  rfl

theorem zeroiseCabinet_eq (s : State) : zeroiseCabinet s =
    if live s then refuseWindows (destroyKeys s).mainCleared else destroyKeys s := by
  rw [zeroiseCabinet]
  split
  · next hlive => exact clearMainDomain_eq hlive
  · rfl

/-- What a zeroisation leaves of the blocks it does not clear (R165, R166). -/
structure ZeroisedBlocks (s t : State) : Prop where
  entry : ∃ work waiting, t.entry = { s.entry.destroy with work := work, waiting := waiting }
  timing : t.back.timing = s.back.timing
  run : t.run = s.run
  mon : t.mon = s.mon

theorem refuseWindows_frame (s : State) : ∃ front ev, refuseWindows s = { s with front := front, ev := ev } := by
  unfold refuseWindows
  generalize (s.front.slots.filter Slot.cutOff).map _ = tags
  induction tags generalizing s with
  | nil => exact ⟨s.front, s.ev, rfl⟩
  | cons tag tags ih =>
    obtain ⟨front, ev, hfront⟩ : ∃ front ev, refuse tag .unready .noReason s = { s with front := front, ev := ev } := by
      unfold refuse
      split
      · exact ⟨s.front, s.ev, rfl⟩
      · exact ⟨_, _, rfl⟩
    obtain ⟨front', ev', hrest⟩ := ih { s with front := front, ev := ev }
    exact ⟨front', ev', by rw [List.foldl_cons, hfront, hrest]⟩

theorem zeroiseCabinet_blocks (s : State) : ZeroisedBlocks s (zeroiseCabinet s) := by
  rw [zeroiseCabinet_eq]
  split
  · obtain ⟨front, ev, hframe⟩ := refuseWindows_frame (destroyKeys s).mainCleared
    rw [hframe]
    exact ⟨⟨_, _, rfl⟩, rfl, rfl, rfl⟩
  · exact ⟨⟨_, _, rfl⟩, rfl, rfl, rfl⟩

/-- A detection while the cabinet holds keys: its row records the alarm, which leaves `r`, and zeroises there (R157, R165). -/
structure Alarmed (c : Instr) (cause : Cause) (s r u : State) : Prop where
  taken : DetectionTaken c s.mon r.mon
  record : r.mon.record = s.mon.record.after cause s.mon.seconds
  testSet : r.mon.testSet = s.mon.testSet
  before : r = { s with
    mon := r.mon, link := r.link
    ev := { s.ev with flags := s.ev.flags |||
      (if live s = true ∧ s.mon.record.valid = false then Flag.tamper.mark else 0#11) } }
  after : u = { zeroiseCabinet r with link := u.link }
  zeroise : ∀ f, c = .zeroise f → u.link.slot = .ready .accepted []
  other : (∀ f, c ≠ .zeroise f) → r.link = s.link ∧ u = zeroiseCabinet r

theorem exec_of_alarm {c : Instr} {cause : Cause} {s : State} (hpulse : PulseTaken s) (hdetects : Detects c cause s)
    (hblank : s.cab.cabinet ≠ .blank) (hzeroed : s.cab.cabinet ≠ .zeroed) :
    ∃ r u, exec c s = .next u ∧ Alarmed c cause s r u := by
  obtain ⟨t, u, hexec, h⟩ := exec_of_detects hpulse hdetects
  have hcab : t.cab = s.cab := by rw [h.before]
  have hlive : live t = live s := by rw [live, live, hcab]
  have hev : t.ev = s.ev := by rw [h.before]
  have hdetect : detect cause t = zeroiseCabinet (recordAlarm cause t) := detect_keyed (by rwa [hcab]) (by rwa [hcab])
  refine ⟨recordAlarm cause t, u, hexec, ?_, ?_, ?_, ?_, ?_, fun f hc => ?_, fun hrow => ?_⟩
  · rw [recordAlarm_eq]
    exact h.taken.recorded _ _
  · rw [recordAlarm_eq, h.record, h.taken.seconds]
  · rw [recordAlarm_eq, h.testSet]
  · rw [recordAlarm_eq, hlive, h.record, hev, h.before]
  · rw [← hdetect]
    exact h.after
  · rw [(h.zeroise f hc).2]
  · obtain ⟨hlink, hu⟩ := h.other hrow
    refine ⟨?_, hu.trans hdetect⟩
    rw [recordAlarm_eq, hlink]

/-- Settles O37: the row records the alarm, and the zeroisation destroys the keys. -/
theorem alarmDestroysKeys : Obligations.AlarmDestroysKeys := by
  unfold Obligations.AlarmDestroysKeys
  intro c cause s hpulse hdetects hblank hzeroed
  obtain ⟨r, u, hexec, h⟩ := exec_of_alarm hpulse hdetects hblank hzeroed
  have hkeys := zeroiseCabinet_zeroised r
  have hblocks := zeroiseCabinet_blocks r
  have hcab : r.cab = s.cab := by rw [h.before]
  have hlive : live r = live s := by rw [live, live, hcab]
  have hfrom {α : Type} (f : State → α) (hf : f { zeroiseCabinet r with link := u.link } = f (zeroiseCabinet r)) :
      f u = f (zeroiseCabinet r) := (congrArg f h.after).trans hf
  have hseeds : u.seeds = s.seeds.destroy := (hfrom State.seeds rfl).trans (hkeys.seeds.trans (by rw [h.before]))
  have hdoms : u.doms = s.doms.map DomRec.vacate := (hfrom State.doms rfl).trans (hkeys.doms.trans (by rw [h.before]))
  have hucab : u.cab = { s.cab with cabinet := .zeroed, sub := zeroSub s, bg := u.cab.bg } := by
    rw [hfrom State.cab rfl, hkeys.cab, hcab, zeroSub, zeroSub, hlive, hcab]
  obtain ⟨work, waiting, hentry⟩ := hblocks.entry
  have hentry : u.entry = { s.entry.destroy with work := work, waiting := waiting } :=
    (hfrom State.entry rfl).trans (hentry.trans (by rw [h.before]))
  have hmon : u.mon = r.mon := (hfrom State.mon rfl).trans hblocks.mon
  have htiming : u.back.timing = s.back.timing :=
    (hfrom (fun u => u.back.timing) rfl).trans (hblocks.timing.trans (by rw [h.before]))
  have hrun : u.run = s.run := (hfrom State.run rfl).trans (hblocks.run.trans (by rw [h.before]))
  have hmem : u.mem = s.mem := (hfrom State.mem rfl).trans (hkeys.mem.trans (by rw [h.before]))
  refine ⟨u, hexec, ?_, fun d => ?_, ?_, ?_, ?_, ?_, fun d => ?_, ?_, ?_, ?_, fun hvalid => ?_, fun hvalid => ?_, hmem, ?_,
    htiming, ?_, ?_, ?_, ?_, ?_, hrun, ?_, ?_⟩
  · rw [hseeds]; rfl
  · rw [hseeds]; simp [SeedStore.destroy]
  · rw [hentry]; rfl
  · rw [hentry]; rfl
  · rw [hentry]; rfl
  · rw [hentry]; rfl
  · rw [hdoms]; simp [DomRec.vacate, DomRec.reset]
  · rw [hseeds]; rfl
  · rw [hucab]
  · rw [hucab]
    show (if live s && s.cab.scrubOn then ZeroSub.scrubbing else .quiet) = .scrubbing ↔ _
    cases live s <;> cases s.cab.scrubOn <;> decide
  · rw [hmon, h.record]
    exact tamperRecord_after_first hvalid _ _
  · rw [hmon, h.record]
    exact tamperRecord_after_further hvalid _ _
  · rw [hseeds]; rfl
  · rw [hentry]; rfl
  · rw [hentry]; rfl
  · rw [hentry]; rfl
  · rw [hucab]
  · rw [hucab]
  · rw [hmon]
    exact h.taken
  · rw [hmon, h.testSet]

/-- A PLAIN transaction's waiting request stays, and no other (R167). -/
theorem survivesAlarm_eq {s : State} (hslots : SlotLaw s) (tag : Tag) : survivesAlarm s (.front tag) =
    s.front.slots.any fun x => x.txn.tag == tag && !(regionOf x.txn.line).isWindow := by
  rw [Bool.eq_iff_iff, List.any_eq_true]
  simp only [survivesAlarm]
  refine ⟨fun h => ?_, fun ⟨x, hx, hplain⟩ => ?_⟩
  · split at h
    · next x hx => exact ⟨x, mem_of_findSlot s hx, by rw [tag_of_findSlot s hx, beq_self_eq_true, h]; rfl⟩
    · exact absurd h Bool.noConfusion
  · obtain ⟨htag, hplain⟩ := (Bool.and_eq_true _ _).mp hplain
    rw [← eq_of_beq htag, findSlot_of_mem hslots hx]
    exact hplain

/-- Settles O38: the alarm is recorded, the blocks are cleared (`mainCleared`) and the windows' transactions answered
(`refuseWindows_eq`). -/
theorem alarmReachesMainDomain : Obligations.AlarmReachesMainDomain := by
  unfold Obligations.AlarmReachesMainDomain
  intro c cause s hpulse hdetects hblank hzeroed hlive hslots
  obtain ⟨r, u, hexec, h⟩ := exec_of_alarm hpulse hdetects hblank hzeroed
  have hlive' : live r = true := by rw [h.before]; exact hlive
  have hfront : r.front = s.front := by rw [h.before]
  have hslots' : SlotLaw r := by rw [SlotLaw, hfront]; exact hslots
  have hzero : zeroiseCabinet r = refuseWindows (destroyKeys r).mainCleared := by
    rw [zeroiseCabinet_eq, if_pos hlive']
  rw [refuseWindows_eq (s := (destroyKeys r).mainCleared) hslots'] at hzero
  have hu := h.after
  rw [hzero] at hu
  have hback : u.back = (destroyKeys r).mainCleared.back := by rw [hu]
  have hcab : u.cab = (destroyKeys r).mainCleared.cab := by rw [hu]
  have hxlat : u.xlat = (destroyKeys r).mainCleared.xlat := by rw [hu]
  have hrxlat : r.xlat = s.xlat := by rw [h.before]
  have hsub : (destroyKeys r).mainCleared.cab.bg = if s.cab.scrubOn then s.cab.bg.start .scrub else s.cab.bg.stop := by
    show (if zeroSub r = .scrubbing then r.cab.bg.start .scrub else r.cab.bg.stop) = _
    rw [zeroSub, hlive', h.before]
    cases s.cab.scrubOn <;> rfl
  have huslots : u.front.slots = s.front.slots.map fun y => if y.cutOff then y.refusedUnready else y := by
    rw [hu, ← hfront]
    rfl
  have hfind := fun tag => findSlot_map (s := s) (g := fun y => if y.cutOff then y.refusedUnready else y)
    (fun y => by split <;> rfl) huslots tag
  have hev : u.ev = ((s.front.slots.filter Slot.cutOff).map unreadyReport).foldl (fun e r => e.take r) { s.ev with
      flags := s.ev.flags ||| (if s.mon.record.valid then 0#11 else Flag.tamper.mark) ||| LockLostMark (fun _ => true) s } := by
    rw [hu, ← hfront]
    show List.foldl _ { r.ev with flags := r.ev.flags ||| LockLostMark (fun _ => true) r } _ = _
    rw [h.before, if_congr (by simp [hlive] : live s = true ∧ s.mon.record.valid = false ↔ s.mon.record.valid = false)
      rfl rfl]
    cases s.mon.record.valid <;> rfl
  refine ⟨u, hexec, fun i => ?_, fun i => ?_, ?_, ?_, ?_, ?_, ?_, ?_, ?_, ?_, ?_, ?_, ?_, fun hwait hrow => ?_, h.zeroise, ?_,
    fun tag x hx hwindow hopen => ?_, fun tag x hx hstays => ?_, fun hvalid => ?_, _, List.Perm.refl _, hev⟩
  · rw [hxlat, ← hrxlat]
    show (r.xlat.fixed.map FixedEntry.drop)[i] = _
    simp [FixedEntry.drop, Held.drop]
  · rw [hxlat, ← hrxlat]
    show (r.xlat.sets.map SetRow.drop)[i] = _
    simp [SetRow.drop, Held.drop]
  · rw [hxlat]; rfl
  · rw [hxlat]; rfl
  · rw [hu]; rfl
  · rw [hu]; rfl
  · rw [hu]; rfl
  · rw [hu]; rfl
  · rw [hu]; rfl
  · rw [hback]
    show { r.back with waiting := r.back.waiting.filter (survivesAlarm (destroyKeys r)) } = _
    rw [show r.back = s.back by rw [h.before]]
    refine congrArg (fun waiting => ({ s.back with waiting := waiting } : BackCtl)) (List.filter_congr fun w _ => ?_)
    cases w with
    | front tag => exact (survivesAlarm_eq (s := destroyKeys r) hslots' tag).trans (by rw [← hfront]; rfl)
    | _ => rfl
  · rw [hcab, hsub]
    cases s.cab.scrubOn <;> rfl
  · rw [hcab, hsub]
    cases s.cab.scrubOn <;> rfl
  · rw [hcab, hsub]
    cases s.cab.scrubOn <;> rfl
  · obtain ⟨hlink, hu'⟩ := h.other hrow
    rw [hu', hzero]
    show (answerLock .state (destroyKeys r)).link.slot = _
    have hslot : (destroyKeys r).link.slot = .waiting := by rw [← hwait, ← hlink]; rfl
    simp [answerLock, State.onLink, hslot]
  · rw [hu, ← hfront]
    rfl
  · rw [hfind, hx]
    exact congrArg some (if_pos (by simp [Slot.cutOff, hwindow, hopen]))
  · rw [hfind, hx]
    refine congrArg some (if_neg ?_)
    obtain hplain | hdone := hstays
    · simp [Slot.cutOff, hplain]
    · simp [Slot.cutOff, hdone]
  · rw [hev]
    refine flag_foldl_take (mark_kept ?_ _) _
    rw [hvalid]
    exact mark_of_raised _ _

end Sys2Proof.Machine

/-! PROOFS. Steps on an empty queue: what arrives is taken, and which commands it makes due (EmptyQueueSteps). -/

namespace Sys2Proof.Machine

/-! ## An edge of the back clock (R126) -/

/-- The part's own commands beside those of its clocks hold no refresh accrual. -/
theorem opStep_ne_refreshAccrual (o : EntryOp) (r : Fin 2) : opStep o ≠ .refreshAccrual r := by
  cases o <;> exact Instr.noConfusion

theorem count_readySteps (s : State) (r : Fin 2) : (readySteps s).count (.refreshAccrual r) = 0 := by
  rw [List.count_eq_zero]
  have hop : ∀ o, s.entry.waiting.head? = some o → opStep o ≠ .refreshAccrual r := fun o _ => opStep_ne_refreshAccrual o r
  simpa [readySteps] using hop

theorem count_pathSteps (t : Nat) (s : State) (r : Fin 2) : (pathSteps t s).count (.refreshAccrual r) = 0 := by
  rw [List.count_eq_zero]
  simp [pathSteps, selectSteps]

theorem burstStep_ne_refreshAccrual (s : State) (x : Burst) (r : Fin 2) : burstStep s x ≠ .refreshAccrual r := by
  unfold burstStep
  split_ifs <;> exact Instr.noConfusion

/-- With START-UP over, each return to 0 that a timer has made is a refresh accrual to take. -/
theorem count_timedSteps {t : Nat} {s : State} (hstart : s.back.startUp = none) (r : Fin 2) :
    (timedSteps t s).count (.refreshAccrual r) = s.back.ranks[r].accrued := by
  have hburst := burstStep_ne_refreshAccrual s
  have hrest : Instr.refreshAccrual r ∉ ((List.finRange 2).filterMap fun r =>
        if s.back.endDue r t then some (Instr.refreshEnd r) else none) ++
      (allBanks.filterMap fun p => if s.back.autoDue p.1 p.2 t then some (Instr.automaticPrecharge p.1 p.2) else none) ++
      (s.back.bursts.filter fun x => decide (x.finish ≤ t)).map (burstStep s) := by
    simp [hburst]
  have haccruals : ((List.finRange 2).flatMap fun q =>
      List.replicate s.back.ranks[q].accrued (Instr.refreshAccrual q)).count (.refreshAccrual r) =
      s.back.ranks[r].accrued := by
    rw [show List.finRange 2 = [0, 1] from rfl]
    fin_cases r <;> simp [List.count_append, List.count_replicate]
  simp only [timedSteps, hstart]
  rw [List.append_assoc, List.append_assoc, ← List.append_assoc _ _ (List.map _ _), List.count_append, haccruals,
    List.count_eq_zero.mpr hrest, Nat.add_zero]

/-! ## An edge of the mesh clock (R151 to R153) -/

section Mesh

variable {x : Inputs} {m : Fin 2} {y : Mesh}

theorem Mesh.count1_eq (y : Mesh) :
    y.count1 = if y.enable = true then { y with interval := min (y.interval + 1) (y.period + y.tol + 1) } else y := rfl

theorem mem_meshSteps {c : Instr} : c ∈ meshSteps x m y ↔ c = .meshDrivePhase m ∨ (x.crosses m = true ∧ c = .meshCrossing m) ∨
    ((x.crosses m = false ∧ y.enable = true ∧ y.interval = y.missAt) ∧ c = .meshMiss m) ∨
    ((x.crosses m = true ∨ y.enable = true ∧ y.interval = y.missAt) ∧ c = .meshDetection m) := by
  unfold meshSteps
  split_ifs with hcross hmiss
  · simp [hcross]
  · simp [hcross, hmiss]
  · simp [hcross, hmiss]

/-- A miss is due where the counter has come to the end of the window, as it stood before the edge. -/
theorem Mesh.count1_missed (y : Mesh) : (y.count1.enable = true ∧ y.count1.interval = y.count1.missAt) ↔
    y.enable = true ∧ y.period + y.tol ≤ y.interval := by
  rw [Mesh.count1_eq]
  split
  · next hon =>
    show y.enable = true ∧ min (y.interval + 1) (y.period + y.tol + 1) = y.period + y.tol + 1 ↔ _
    refine and_congr_right fun _ => ?_
    omega
  · next hoff => simp [hoff]

end Mesh

/-! ## A monitor clock (R27, R94, R145, R154, R156) -/

theorem SampledInput.sample_sampled (level : Bool) (x : SampledInput) : Sampled level x (x.sample level).1 := by
  unfold SampledInput.sample Limit.samples
  refine ⟨fun heq => by rw [if_pos heq], fun hne hfew => ?_, fun hne hfull => ?_⟩
  · rw [if_neg hne, if_pos (by omega)]
  · rw [if_neg hne, if_neg (by omega)]

theorem SampledInput.sample_registers (level : Bool) (x : SampledInput) :
    (x.sample level).2 = true ↔ Registers level x := by
  unfold SampledInput.sample Limit.samples Registers
  split_ifs with heq hfew
  · simp [heq]
  · simp only [false_iff]
    omega
  · simp only [true_iff]
    exact ⟨heq, by omega⟩

section Monitor

variable {x : Inputs} {s : State} {c : Instr}

theorem mem_runSteps : c ∈ runSteps s ↔ (live s = true ∧ s.run.counter = s.run.compare) ∧ (c = .runPulse ∨
    (∃ d : Fin 64, (s.doms[d].state = .opened ∧ s.doms[d].lease.toNat ≤ 1) ∧ c = .leaseExpiry (BitVec.ofNat 6 d.val)) ∨
    c = .windowLapse .a ∨ c = .windowLapse .b) := by
  unfold runSteps
  split_ifs with hdue
  · simp [hdue, eq_comm (a := c)]
  · simp [hdue]

theorem mem_sampleSteps : c ∈ sampleSteps x s ↔
    (Registers x.custA s.entry.switchA ∧ (x.custA = true ∧ c = .registeredSwitchOn .a ∨
      x.custA = false ∧ c = .registeredSwitchOff .a)) ∨
    (Registers x.custB s.entry.switchB ∧ (x.custB = true ∧ c = .registeredSwitchOn .b ∨
      x.custB = false ∧ c = .registeredSwitchOff .b)) ∨
    (Registers x.lidOpen s.mon.lid ∧ c = .lidRegistered x.lidOpen) ∨
    (Registers x.panelPressed s.mon.panel ∧ c = .panelRegistered x.panelPressed) := by
  simp only [sampleSteps, List.mem_append, List.mem_ite_nil_right, SampledInput.sample_registers, List.mem_singleton, or_assoc]
  cases x.custA <;> cases x.custB <;> simp

theorem mem_conversionSteps : c ∈ conversionSteps x s ↔ (s.cab.power = .mains ∨ s.mon.pace = 7) ∧
    ∃ ch, s.mon.nextChannel = some ch ∧ (c = .conversion x.analog[ch] ∨ c = .channelDetection ch) := by
  unfold conversionSteps conversionDue
  cases s.mon.nextChannel with
  | none => simp
  | some ch => simp [Inputs.level]

theorem mem_monitorSteps : c ∈ monitorSteps x s ↔ c ∈ runSteps s ∨ c ∈ sampleSteps x s ∨
    (s.mon.secondClocks = 4095 ∧ c = .monitorSecond) ∨ c ∈ conversionSteps x s := by
  simp only [monitorSteps, List.mem_append, List.mem_ite_nil_right, List.mem_singleton, or_assoc]

end Monitor

/-! ## A step on an empty queue -/

section Empty

variable {s : State} {rest : List Arrival}

theorem step_of_empty (h : s.pending = []) : step s = .next (idle s) := by rw [step, h]

theorem idle_back (h : s.arrivals = .back :: rest) : idle s = backEdge { s with arrivals := rest } := by rw [idle, h]

theorem idle_mesh {x : Inputs} (h : s.arrivals = .mesh x :: rest) : idle s = meshEdge x { s with arrivals := rest } := by
  rw [idle, h]

theorem idle_transfer {addr : BitVec 7} {bytes : List Byte} (h : s.arrivals = .transfer addr bytes :: rest) :
    idle s = takeTransfer addr bytes { s with arrivals := rest } := by rw [idle, h]

theorem backEdge_live (hlive : live s = true) : backEdge s = { s with
    back := s.back.advance (s.back.clock + 1)
    pending := timedSteps (s.back.clock + 1) (s.onBack (.advance (s.back.clock + 1))) ++ readySteps s ++
      pathSteps (s.back.clock + 1) s } :=
  if_pos hlive

theorem advance_one (b : BackCtl) : b.advance (b.clock + 1) =
    { b with clock := b.clock + 1, ranks := (b.advance (b.clock + 1)).ranks } := by
  have hclock : max b.clock (b.clock + 1) = b.clock + 1 := by omega
  rw [BackCtl.advance, hclock]

theorem count_backEdge (hlive : live s = true) (hstart : s.back.startUp = none) (r : Fin 2) :
    (backEdge s).pending.count (.refreshAccrual r) = (backEdge s).back.ranks[r].accrued := by
  rw [backEdge_live hlive]
  simp only [List.count_append, count_readySteps, count_pathSteps, Nat.add_zero]
  exact count_timedSteps (s := s.onBack (.advance (s.back.clock + 1))) hstart r

/-- The command path's four kinds of command come together, at the clock of the edge. -/
theorem backEdge_path (hlive : live s = true) : ∃ before after, (backEdge s).pending = before ++
    [Instr.activation (backEdge s).back.clock, Instr.precharge (backEdge s).back.clock,
      Instr.columnCommand (backEdge s).back.clock, Instr.refresh (backEdge s).back.clock] ++ after := by
  rw [backEdge_live hlive, advance_one]
  refine ⟨timedSteps (s.back.clock + 1) (s.onBack (.advance (s.back.clock + 1))) ++ readySteps s ++ selectSteps,
    s.maps.updates.map (fun u => .updateLineWrite u.line) ++ [.backQueueEntry, .fillLineWrite, .backgroundLineOffer] ++
      selectSteps, ?_⟩
  simp only [pathSteps, List.append_assoc]

variable {x : Inputs}

/-- The commands that an edge of the mesh clock makes due. -/
theorem mem_meshEdge {c : Instr} : c ∈ (meshEdge x s).pending ↔
    (∃ m : Fin 2, c ∈ meshSteps x m (s.mon.meshes[m]).count1) ∨ (s.mon.meshClocks = 7 ∧ c ∈ monitorSteps x s) := by
  have hmeshes : (∃ m : Fin 2, c ∈ meshSteps x m (s.mon.meshes[m]).count1) ↔
      c ∈ meshSteps x 0 (s.mon.meshes.map Mesh.count1)[0] ++ meshSteps x 1 (s.mon.meshes.map Mesh.count1)[1] := by
    simp [Fin.exists_fin_two]
  rw [hmeshes, meshEdge]
  dsimp only
  split
  · next hclock => simp [hclock, State.onMon, or_assoc]
  · next hclock => simp [hclock, State.onMon]

/-- The counts of the meshes after an edge. -/
theorem meshEdge_meshes : (meshEdge x s).mon.meshes = s.mon.meshes.map Mesh.count1 ∧
    (meshEdge x s).mon.meshClocks = (s.mon.meshClocks + 1) % 8 := by
  unfold meshEdge
  dsimp only
  split <;> exact ⟨rfl, rfl⟩

/-- A monitor clock: the counts that move. -/
theorem meshEdge_monitor (hclock : s.mon.meshClocks = 7) : meshEdge x s = { s with
    pending := (meshEdge x s).pending
    run := if live s = true ∧ s.run.counter ≠ s.run.compare then { s.run with counter := s.run.counter + 1 } else s.run
    entry := { s.entry with
      switchA := (s.entry.switchA.sample x.custA).1, switchB := (s.entry.switchB.sample x.custB).1 }
    mon := { s.mon with
      meshes := s.mon.meshes.map Mesh.count1, meshClocks := (s.mon.meshClocks + 1) % 8
      lid := (s.mon.lid.sample x.lidOpen).1, panel := (s.mon.panel.sample x.panelPressed).1
      secondClocks := min (s.mon.secondClocks + 1) 4095
      pace := if s.cab.power = .mains then s.mon.pace else if s.mon.pace = 7 then 0 else s.mon.pace + 1 } } := by
  rw [meshEdge, if_pos hclock]
  rfl

theorem meshCrossing_due (m : Fin 2) : Instr.meshCrossing m ∈ (meshEdge x s).pending ↔ x.crosses m = true := by
  simp [mem_meshEdge, mem_meshSteps, mem_monitorSteps, mem_runSteps, mem_sampleSteps, mem_conversionSteps]

theorem meshMiss_due (m : Fin 2) : Instr.meshMiss m ∈ (meshEdge x s).pending ↔ x.crosses m = false ∧
    s.mon.meshes[m].enable = true ∧ s.mon.meshes[m].period + s.mon.meshes[m].tol ≤ s.mon.meshes[m].interval := by
  simp [mem_meshEdge, mem_meshSteps, mem_monitorSteps, mem_runSteps, mem_sampleSteps, mem_conversionSteps, Mesh.count1_missed]

/-- What a monitor clock makes due besides the commands of the meshes. -/
theorem monitor_due {c : Instr} (hclock : s.mon.meshClocks = 7) (hother : ∀ m y, c ∉ meshSteps x m y) :
    c ∈ (meshEdge x s).pending ↔ c ∈ monitorSteps x s := by
  simp [mem_meshEdge, hclock, hother]

section Due

variable (hclock : s.mon.meshClocks = 7)
include hclock

theorem runPulse_due : Instr.runPulse ∈ (meshEdge x s).pending ↔ live s = true ∧ s.run.counter = s.run.compare := by
  rw [monitor_due hclock (by simp [mem_meshSteps])]
  simp [mem_monitorSteps, mem_runSteps, mem_sampleSteps, mem_conversionSteps]

theorem registeredSwitchOn_due : (Instr.registeredSwitchOn .a ∈ (meshEdge x s).pending ↔
      x.custA = true ∧ Registers x.custA s.entry.switchA) ∧
    (Instr.registeredSwitchOn .b ∈ (meshEdge x s).pending ↔ x.custB = true ∧ Registers x.custB s.entry.switchB) := by
  rw [monitor_due hclock (by simp [mem_meshSteps]), monitor_due hclock (by simp [mem_meshSteps])]
  simp [mem_monitorSteps, mem_runSteps, mem_sampleSteps, mem_conversionSteps, and_comm]

theorem registeredSwitchOff_due : (Instr.registeredSwitchOff .a ∈ (meshEdge x s).pending ↔
      x.custA = false ∧ Registers x.custA s.entry.switchA) ∧
    (Instr.registeredSwitchOff .b ∈ (meshEdge x s).pending ↔ x.custB = false ∧ Registers x.custB s.entry.switchB) := by
  rw [monitor_due hclock (by simp [mem_meshSteps]), monitor_due hclock (by simp [mem_meshSteps])]
  simp [mem_monitorSteps, mem_runSteps, mem_sampleSteps, mem_conversionSteps, and_comm]

theorem lidRegistered_due : Instr.lidRegistered x.lidOpen ∈ (meshEdge x s).pending ↔ Registers x.lidOpen s.mon.lid := by
  rw [monitor_due hclock (by simp [mem_meshSteps])]
  simp [mem_monitorSteps, mem_runSteps, mem_sampleSteps, mem_conversionSteps]

theorem panelRegistered_due :
    Instr.panelRegistered x.panelPressed ∈ (meshEdge x s).pending ↔ Registers x.panelPressed s.mon.panel := by
  rw [monitor_due hclock (by simp [mem_meshSteps])]
  simp [mem_monitorSteps, mem_runSteps, mem_sampleSteps, mem_conversionSteps]

theorem monitorSecond_due : Instr.monitorSecond ∈ (meshEdge x s).pending ↔ s.mon.secondClocks = 4095 := by
  rw [monitor_due hclock (by simp [mem_meshSteps])]
  simp [mem_monitorSteps, mem_runSteps, mem_sampleSteps, mem_conversionSteps]

theorem conversion_due {c : Fin 8} (hc : s.mon.nextChannel = some c) :
    Instr.conversion x.analog[c] ∈ (meshEdge x s).pending ↔ s.cab.power = .mains ∨ s.mon.pace = 7 := by
  rw [monitor_due hclock (by simp [mem_meshSteps])]
  simp [mem_monitorSteps, mem_runSteps, mem_sampleSteps, mem_conversionSteps, hc]

end Due

end Empty

/-- Settles O60: each arrival by its edge or transfer, the commands due by the lists' members. -/
theorem emptyQueueSteps : Obligations.EmptyQueueSteps := by
  unfold Obligations.EmptyQueueSteps
  intro s rest hempty
  rw [step_of_empty hempty]
  refine ⟨fun hnone => by rw [idle, hnone], fun addr h => ?_, fun addr bytes c h hc => ?_, fun h hdead => ?_,
    fun h hlive => ?_, fun x h => ?_⟩
  · rw [idle_transfer h]
    have hack : addressed addr { s with arrivals := rest } = decide (live s = true ∧ addr = linkAddress s) := by
      rw [Bool.eq_iff_iff, decide_eq_true_iff]
      exact addressed_iff (s := s)
    show Host.Outcome.next (acknowledge (addressed addr { s with arrivals := rest }) { s with arrivals := rest }) = _
    rw [hack]
    rfl
  · rw [idle_transfer h, takeTransfer, hc]
    show Host.Outcome.next { s with arrivals := rest, pending := s.pending ++ [c] } = _
    rw [hempty, List.nil_append]
  · rw [idle_back h]
    exact congrArg Host.Outcome.next (if_neg (by exact ne_true_of_eq_false hdead))
  · have hlive' : live { s with arrivals := rest } = true := hlive
    refine ⟨_, congrArg Host.Outcome.next (idle_back h), ?_, ?_, fun hstart r => count_backEdge hlive' hstart r,
      backEdge_path hlive'⟩
    · rw [backEdge_live hlive']
      exact timersOnly_advance _ _
    · rw [backEdge_live hlive']
      exact congrArg (fun b => ({ s with arrivals := rest, back := b, pending := _ } : State)) (advance_one s.back)
  · obtain ⟨hmeshes, hclocks⟩ := meshEdge_meshes (x := x) (s := { s with arrivals := rest })
    refine ⟨_, congrArg Host.Outcome.next (idle_mesh h), fun m => ?_, hclocks,
      fun m => ⟨mem_meshEdge.mpr (.inl ⟨m, mem_meshSteps.mpr (.inl rfl)⟩), meshCrossing_due m, meshMiss_due m⟩, fun hclock => ?_,
      fun hclock => ?_⟩
    · rw [hmeshes]
      simp [Mesh.count1_eq]
    · rw [meshEdge, if_neg (by exact hclock)]
      rfl
    · have hzero : (s.mon.meshClocks + 1) % 8 = 0 := by rw [hclock]
      have hedge := meshEdge_monitor (x := x) (s := { s with arrivals := rest }) hclock
      obtain ⟨honA, honB⟩ := registeredSwitchOn_due (x := x) (s := { s with arrivals := rest }) hclock
      obtain ⟨hoffA, hoffB⟩ := registeredSwitchOff_due (x := x) (s := { s with arrivals := rest }) hclock
      refine ⟨?_, fun hlive hne => ?_, fun hstays => ?_, runPulse_due (s := { s with arrivals := rest }) hclock, ?_, ?_, ?_,
        ?_, honA, hoffA, honB, hoffB, lidRegistered_due hclock, panelRegistered_due hclock, monitorSecond_due hclock,
        fun hmains => ?_, fun hbattery => ?_, fun c hc => conversion_due (s := { s with arrivals := rest }) hclock hc⟩
      · rw [← hzero, hedge]
      · rw [hedge]
        exact if_pos ⟨hlive, hne⟩
      · rw [hedge]
        refine if_neg fun ⟨hlive, hne⟩ => ?_
        obtain hdead | heq := hstays
        · exact ne_true_of_eq_false hdead hlive
        · exact hne heq
      · rw [hedge]
        exact SampledInput.sample_sampled _ _
      · rw [hedge]
        exact SampledInput.sample_sampled _ _
      · rw [hedge]
        exact SampledInput.sample_sampled _ _
      · rw [hedge]
        exact SampledInput.sample_sampled _ _
      · rw [hedge]
        exact if_pos hmains
      · rw [hedge]
        exact if_neg (by simp [hbattery])

end Sys2Proof.Machine

/-! PROOFS. The end of a walk: what its result makes of a waiter, of all waiters in their order, and of the buffers
(WalkCompletes). -/

namespace Sys2Proof.Machine

/-! ## What a waiter is answered -/

/-- The phase of a waiter that is served at its key page line `l` (R89): its read is under way or waits to enter, its line is
written or waits to, or it is answered. -/
structure KeyServed (s : State) (t : Txn) (l : BackLine) (waiting : List Waiter) (more : List BackReq) (ph : Phase) : Prop where
  read : t.dir = .read ∨ t.enables ≠ 0#64 ∧ t.enables ≠ allMarks →
    (ph = .readWait l ∧ .front t.tag ∈ waiting) ∨ ∃ q ∈ more, ph = .readOut l q.id ∧
      q = newRequest q.id false l .front (if t.dir = .read then t.beat else 0#3) zeroLine 0#64
  none : t.dir = .write → t.enables = 0#64 → ph = .responding .done zeroLine
  write : ∀ key, t.dir = .write → t.enables = allMarks → lineKey s t.dom = some key →
    (ph = .writeWait l t.data ∧ .front t.tag ∈ waiting) ∨ (ph = .responding .done zeroLine ∧ ∃ q ∈ more,
      q = newRequest q.id true l .front 0#3 (encipher key l t.data) 0#64)

/-- The phase of a waiter that takes a walk's result (R60, R88, R90), in a state `s` with the keys and domains of its step. -/
structure WaiterAnswered (page : Option Page) (s : State) (t : Txn) (waiting : List Waiter) (more : List BackReq)
    (ph : Phase) : Prop where
  closed : admits (domState s t.dom) t.dir = false → ph = .responding .closed zeroLine
  absent : admits (domState s t.dom) t.dir = true → page = none → ph = .responding .absent zeroLine
  refused : admits (domState s t.dom) t.dir = true → ∀ p kind why, page = some p →
    classOutcome (domState s t.dom) t p = .refused kind why → ph = .responding kind.status zeroLine
  handed : admits (domState s t.dom) t.dir = true → ∀ p, page = some p → classOutcome (domState s t.dom) t p = .handed →
    ph = .entryWait
  served : admits (domState s t.dom) t.dir = true → ∀ p, page = some p → classOutcome (domState s t.dom) t p = .served →
    KeyServed s t (keyBackLine s.seeds.pab p.bpn (keyPageIndex t.line)) waiting more ph

/-- The component write that a waiter is handed over as (R88, R102). -/
def waiterOp (page : Option Page) (s : State) (t : Txn) : Option EntryOp :=
  page.bind fun p =>
    if admits (domState s t.dom) t.dir = true ∧ classOutcome (domState s t.dom) t p = .handed then
      some (.component t.tag p.bpn p.life) else none

/-- One waiter has taken the result: its slot has moved, `ops` wait at the Entry Unit and `more` has entered the Back Queue.
-/
structure Served (t : Txn) (ops : List EntryOp) (more : List BackReq) (ph : Phase) (s m : State) : Prop where
  frame : m = { s.moveSlot t.tag .key ph with
    entry := { s.entry with waiting := s.entry.waiting ++ ops }
    back := { s.back with
      queue := s.back.queue ++ more, waiting := m.back.waiting, nextId := s.back.nextId + more.length }
    ev := m.ev }
  waiting : ∀ w ∈ s.back.waiting, w ∈ m.back.waiting

section Step

variable {s : State} {t : Txn} {page : Option Page}

theorem served_moved (ph : Phase) (s : State) : Served t [] [] ph s (s.moveSlot t.tag .key ph) :=
  ⟨by simp [State.moveSlot], fun _ hw => hw⟩

theorem served_refused (k : Kind) (why : Reason) (s : State) :
    Served t [] [] (.responding k.status zeroLine) s (s.refused t .key k why) :=
  ⟨by simp [State.refused, State.moveSlot], fun _ hw => hw⟩

theorem served_pushed (write : Bool) (l : BackLine) (beat : Beat) (d : Line) (ph : Phase) (s : State) :
    Served t [] [newRequest s.back.nextId write l .front beat d 0#64] ph s
      { s.moveSlot t.tag .key ph with back := s.back.push write l .front beat d 0#64 } :=
  ⟨by simp [State.moveSlot, BackCtl.push], fun _ hw => hw⟩

theorem mem_await (w v : Waiter) (b : BackCtl) : v ∈ (b.await w).waiting ↔ v ∈ b.waiting ∨ v = w := by
  unfold BackCtl.await
  dsimp only
  split
  · next hmem => exact ⟨.inl, fun h => h.elim id fun heq => heq ▸ hmem⟩
  · simp

theorem served_waits (ph : Phase) (s : State) : Served t [] [] ph s
    { s.moveSlot t.tag .key ph with back := s.back.await (.front t.tag) } :=
  ⟨by simp [State.moveSlot, BackCtl.await], fun w hw => (mem_await _ w s.back).mpr (.inl hw)⟩

theorem classCheck_served (h : Serving t .key s) {p : Page} (hserved : classOutcome (domState s t.dom) t p = .served) :
    classCheck t.tag p s = serveKey t.tag t p s := by
  obtain ⟨x, hx, rfl, -⟩ := h.found
  unfold classCheck
  simp only [hx]
  by_cases happ : p.kernelOnly = true ∧ x.txn.priv = .app
  · rw [classOutcome, if_pos happ] at hserved
    cases hserved
  · rw [classOutcome, if_neg happ] at hserved
    rw [if_neg happ]
    cases hcls : p.cls <;> cases hdir : x.txn.dir <;> simp [hcls, hdir] at hserved ⊢
    · exact fun hne => absurd hserved hne
    · exact fun hne => absurd hserved hne

/-- A line write whose domain has lost its key is refused CLOSED where it would enter (R83; log entry 15). -/
theorem offerWrite_keyless (h : Serving t .key s) (hmay : mayEnter (.front t.tag) s = true) (hkey : lineKey s t.dom = none)
    (l : BackLine) (d : Line) : offerWrite t.tag l d s = s.refused t .key .closed .noReason := by
  obtain ⟨x, hx, rfl, hregion, hlost⟩ := h.found
  have hmay' : mayEnter (.front x.txn.tag) (setPhase x.txn.tag (.writeWait l d) s) = true :=
    (mayEnter_congr _ rfl rfl).trans hmay
  have hx' := findSlot_setPhase_self s (.writeWait l d) hx
  have hkey' : lineKey (setPhase x.txn.tag (.writeWait l d) s) x.txn.dom = none := hkey
  have henter : enterFront x.txn.tag (setPhase x.txn.tag (.writeWait l d) s) =
      refuse x.txn.tag .closed .noReason (setPhase x.txn.tag (.writeWait l d) s) := by
    simp only [enterFront, hx', hregion, hlost rfl, hkey', Bool.false_eq_true, if_false]
  rw [offerWrite, offer, if_pos hmay']
  show enterFront x.txn.tag _ = _
  rw [henter, h.setPhase_eq, (h.moveSlot _).refuse_eq, State.refused, moveSlot_moveSlot]
  rfl

/-- A waiter is served at its key page line (R89). -/
theorem serveKey_served (hlive : live s = true) (h : Serving t .key s) (p : Page) :
    ∃ more ph, Served t [] more ph s (serveKey t.tag t p s) ∧
      KeyServed s t (keyBackLine s.seeds.pab p.bpn (keyPageIndex t.line)) (serveKey t.tag t p s).back.waiting more ph := by
  obtain ⟨hread, hnone, hwrite⟩ := h.serveKey_serves hlive p
  generalize hl : keyBackLine s.seeds.pab p.bpn (keyPageIndex t.line) = l at hread hwrite
  by_cases hreads : t.dir = .read ∨ t.enables ≠ 0#64 ∧ t.enables ≠ allMarks
  · have hnot (hdir : t.dir = .write) : t.enables ≠ 0#64 ∧ t.enables ≠ allMarks :=
      hreads.resolve_left (by simp [hdir])
    rw [hread (hreads.imp_right fun ⟨hzero, hall⟩ => ⟨hzero, hall, by decide⟩)]
    split
    · exact ⟨_, _, served_pushed _ _ _ _ _ s, fun _ => .inr ⟨_, List.mem_singleton_self _, rfl, rfl⟩,
        fun hdir hen => absurd hen (hnot hdir).1, fun _ hdir hen => absurd hen (hnot hdir).2⟩
    · exact ⟨_, _, served_waits _ s, fun _ => .inl ⟨rfl, (mem_await _ _ s.back).mpr (.inr rfl)⟩,
        fun hdir hen => absurd hen (hnot hdir).1, fun _ hdir hen => absurd hen (hnot hdir).2⟩
  · have hdir : t.dir = .write := by
      cases hdir : t.dir with
      | read => exact absurd (.inl hdir) hreads
      | write => rfl
    by_cases hzero : t.enables = 0#64
    · rw [hnone hdir hzero]
      exact ⟨_, _, served_moved _ s, fun hr => absurd hr hreads, fun _ _ => rfl,
        fun _ _ hall => absurd (hzero.symm.trans hall) (by decide)⟩
    · have hall : t.enables = allMarks := by
        by_contra hall
        exact hreads (.inr ⟨hzero, hall⟩)
      have hoffer : serveKey t.tag t p s = offerWrite t.tag l t.data s := by
        simp only [serveKey, hdir, hall, hl, if_true]
        rw [if_neg (by decide)]
      have hwrite := hwrite hdir hzero (.inl hall)
      by_cases hmay : mayEnter (.front t.tag) s = true
      · rw [if_pos hmay] at hwrite
        cases hkey : lineKey s t.dom with
        | none =>
          rw [hoffer, offerWrite_keyless h hmay hkey]
          exact ⟨_, _, served_refused _ _ s, fun hr => absurd hr hreads, fun _ hen => absurd hen hzero,
            fun key _ _ hk => absurd (hkey.symm.trans hk) nofun⟩
        | some key =>
          obtain ⟨hu, hxlat, hev⟩ := hwrite (encipher key l t.data) (fun hne => absurd rfl hne) fun _ => ⟨key, hkey, rfl⟩
          have hu : serveKey t.tag t p s = { s.moveSlot t.tag .key (.responding .done zeroLine) with
              back := s.back.push true l .front 0#3 (encipher key l t.data) 0#64 } := by
            rw [hu, hxlat, hev]
            rfl
          rw [hu]
          refine ⟨_, _, served_pushed _ _ _ _ _ s, fun hr => absurd hr hreads, fun _ hen => absurd hen hzero,
            fun key' _ _ hk => .inr ⟨rfl, _, List.mem_singleton_self _, ?_⟩⟩
          obtain rfl : key = key' := Option.some.inj (hkey.symm.trans hk)
          rfl
      · rw [if_neg hmay] at hwrite
        rw [hwrite]
        exact ⟨_, _, served_waits _ s, fun hr => absurd hr hreads, fun _ hen => absurd hen hzero,
          fun _ _ _ _ => .inl ⟨rfl, (mem_await _ _ s.back).mpr (.inr rfl)⟩⟩

/-- A waiter that the re-check admits is answered by the class check of the page. -/
theorem waiterAnswered_of_page {p : Page} {waiting : List Waiter} {more : List BackReq} {ph : Phase}
    (hadmits : admits (domState s t.dom) t.dir = true)
    (hrefused : ∀ kind why, classOutcome (domState s t.dom) t p = .refused kind why →
      ph = .responding kind.status zeroLine)
    (hhanded : classOutcome (domState s t.dom) t p = .handed → ph = .entryWait)
    (hserved : classOutcome (domState s t.dom) t p = .served →
      KeyServed s t (keyBackLine s.seeds.pab p.bpn (keyPageIndex t.line)) waiting more ph) :
    WaiterAnswered (some p) s t waiting more ph where
  closed hno := absurd (hadmits.symm.trans hno) Bool.noConfusion
  absent _ hnone := nomatch hnone
  refused _ _ kind why hp := Option.some.inj hp ▸ hrefused kind why
  handed _ _ hp := Option.some.inj hp ▸ hhanded
  served _ _ hp := Option.some.inj hp ▸ hserved

/-- A waiter's re-check, then the result it takes (R60, R90). -/
theorem serveWaiter_eq (h : Serving t .key s) (page : Option Page) : serveWaiter page s t.tag =
    if admits (domState s t.dom) t.dir = false then s.refused t .key .closed .noReason
    else page.elim (s.refused t .key .absent .noReason) fun p => classCheck t.tag p s := by
  obtain ⟨x, hx, rfl, -⟩ := h.found
  rw [← h.refuse_eq, ← h.refuse_eq]
  unfold serveWaiter
  simp only [hx]
  cases page <;> rfl

/-- A waiter takes the walk's result (R60, R90). -/
theorem serveWaiter_served (hlive : live s = true) (h : Serving t .key s) (page : Option Page) :
    ∃ more ph, Served t (waiterOp page s t).toList more ph s (serveWaiter page s t.tag) ∧
      WaiterAnswered page s t (serveWaiter page s t.tag).back.waiting more ph := by
  rw [serveWaiter_eq h]
  cases hadmits : admits (domState s t.dom) t.dir with
  | false =>
    have hop : waiterOp page s t = none := by cases page <;> simp [waiterOp, hadmits]
    rw [if_pos rfl, hop]
    exact ⟨_, _, served_refused _ _ s, fun _ => rfl, by simp [hadmits], by simp [hadmits], by simp [hadmits],
      by simp [hadmits]⟩
  | true =>
    rw [if_neg (by decide)]
    cases page with
    | none => exact ⟨_, _, served_refused _ _ s, by simp [hadmits], fun _ _ => rfl, by simp, by simp, by simp⟩
    | some p =>
      have hgoes := h.classCheck_goesOn hlive p
      rw [GoesOn] at hgoes
      show ∃ more ph, Served t _ more ph s (classCheck t.tag p s) ∧ WaiterAnswered _ s t (classCheck t.tag p s).back.waiting more ph
      cases houtcome : classOutcome (domState s t.dom) t p with
      | served =>
        obtain ⟨more, ph, hserved, hanswer⟩ := serveKey_served hlive h p
        rw [classCheck_served h houtcome]
        have hop : waiterOp (some p) s t = none := by simp [waiterOp, houtcome]
        rw [hop]
        exact ⟨more, ph, hserved, waiterAnswered_of_page hadmits (by simp [houtcome]) (by simp [houtcome]) fun _ => hanswer⟩
      | refused kind why =>
        rw [houtcome] at hgoes
        have hop : waiterOp (some p) s t = none := by simp [waiterOp, houtcome]
        rw [hgoes, hop]
        exact ⟨_, _, served_refused _ _ s, waiterAnswered_of_page hadmits (by simp [houtcome]) (by simp [houtcome])
          (by simp [houtcome])⟩
      | handed =>
        rw [houtcome] at hgoes
        have hop : waiterOp (some p) s t = some (.component t.tag p.bpn p.life) := by simp [waiterOp, houtcome, hadmits]
        rw [hgoes, hop]
        exact ⟨[], .entryWait, ⟨by simp [State.moveSlot], fun _ hw => hw⟩, waiterAnswered_of_page hadmits (by simp [houtcome])
          (fun _ => rfl) (by simp [houtcome])⟩

end Step

/-! ## All waiters of a walk, in their order -/

/-- Every waiter named stands in the KEY WINDOW with its key not lost. -/
def KeyWaiters (tags : List Tag) (s : State) : Prop :=
  ∀ y ∈ s.front.slots, y.txn.tag ∈ tags → y.region = some .key ∧ y.keyLost = false

section All

variable {s m v : State} {page : Option Page} {t : Txn} {tag : Tag} {tags : List Tag} {ops : List EntryOp}
  {more more' : List BackReq} {waiting waiting' : List Waiter} {ph : Phase}

theorem KeyWaiters.serving {y : Slot} (h : KeyWaiters tags s) (htag : tag ∈ tags) (hy : findSlot s tag = some y) :
    Serving y.txn .key s := by
  obtain rfl := tag_of_findSlot s hy
  obtain ⟨hregion, hlost⟩ := h y (mem_of_findSlot s hy) htag
  exact ⟨⟨y, hy, rfl, hregion, fun _ => hlost⟩, fun z hz heq => (h z hz (heq ▸ htag)).1⟩

theorem Served.same (h : Served t ops more ph s m) : m.doms = s.doms ∧ m.seeds = s.seeds ∧ m.cab = s.cab := by
  rw [h.frame]
  exact ⟨rfl, rfl, rfl⟩

theorem Served.slots (h : Served t ops more ph s m) : m.front.slots = (s.moveSlot t.tag .key ph).front.slots := by
  rw [h.frame]

theorem Served.findSlot_self {y : Slot} (h : Served t ops more ph s m) (hs : Serving t .key s)
    (hy : findSlot s t.tag = some y) : findSlot m t.tag = some { y with phase := ph } := by
  rw [findSlot_congr h.slots, ← hs.setPhase_eq]
  exact findSlot_setPhase_self s ph hy

theorem Served.findSlot_other (h : Served t ops more ph s m) (hs : Serving t .key s) (hne : tag ≠ t.tag) :
    findSlot m tag = findSlot s tag := by
  rw [findSlot_congr h.slots, ← hs.setPhase_eq]
  exact findSlot_setPhase_other s ph hne

theorem Served.keyWaiters (h : Served t ops more ph s m) (hs : Serving t .key s) (hkeys : KeyWaiters tags s) :
    KeyWaiters tags m := by
  intro y hy htag
  rw [h.slots, ← hs.setPhase_eq] at hy
  obtain ⟨z, hz, rfl⟩ := List.mem_map.mp hy
  dsimp only at htag ⊢
  split at htag
  · next heq => rw [if_pos heq]; exact hkeys z hz htag
  · next hne => rw [if_neg hne]; exact hkeys z hz htag

theorem domState_congr (hdoms : m.doms = s.doms) (hcab : m.cab = s.cab) : domState m = domState s := by
  funext d
  rw [domState, domState, hdoms, hcab]

theorem waiterOp_congr (page : Option Page) (hdoms : m.doms = s.doms) (hcab : m.cab = s.cab) :
    waiterOp page m = waiterOp page s := by
  funext t
  rw [waiterOp, waiterOp, domState_congr hdoms hcab]

/-- Domains, keys and cabinet decide what a waiter is answered. -/
theorem WaiterAnswered.congr (h : WaiterAnswered page m t waiting more ph) (hdoms : m.doms = s.doms)
    (hseeds : m.seeds = s.seeds) (hcab : m.cab = s.cab) : WaiterAnswered page s t waiting more ph := by
  have hstate := domState_congr hdoms hcab
  have hkey : lineKey m = lineKey s := by funext d; rw [lineKey, lineKey, hseeds]
  obtain ⟨hclosed, habsent, hrefused, hhanded, hserved⟩ := h
  rw [hstate] at hclosed habsent hrefused hhanded hserved
  refine ⟨hclosed, habsent, hrefused, hhanded, fun hadmits p hp hout => ?_⟩
  obtain ⟨hread, hnone, hwrite⟩ := hserved hadmits p hp hout
  rw [hkey] at hwrite
  rw [hseeds] at hread hwrite
  exact ⟨hread, hnone, hwrite⟩

/-- Requests and waiting makers of later waiters keep a waiter's answer. -/
theorem WaiterAnswered.mono (h : WaiterAnswered page s t waiting more ph) (hwait : ∀ w ∈ waiting, w ∈ waiting')
    (hmore : ∀ q ∈ more, q ∈ more') : WaiterAnswered page s t waiting' more' ph where
  closed := h.closed
  absent := h.absent
  refused := h.refused
  handed := h.handed
  served hadmits p hp hout := by
    obtain ⟨hread, hnone, hwrite⟩ := h.served hadmits p hp hout
    exact ⟨fun hr => (hread hr).imp (fun ⟨hph, hw⟩ => ⟨hph, hwait _ hw⟩) fun ⟨q, hq, hph⟩ => ⟨q, hmore q hq, hph⟩, hnone,
      fun key hdir hall hk => (hwrite key hdir hall hk).imp (fun ⟨hph, hw⟩ => ⟨hph, hwait _ hw⟩)
        fun ⟨hph, q, hq, hreq⟩ => ⟨hph, q, hmore q hq, hreq⟩⟩

/-- All waiters have taken the result (R58, R60). -/
structure AllServed (page : Option Page) (tags : List Tag) (s v : State) (more : List BackReq) : Prop where
  frame : v = { s with
    front := { s.front with slots := v.front.slots }
    entry := { s.entry with
      waiting := s.entry.waiting ++ tags.filterMap fun tag => (findSlot s tag).bind fun y => waiterOp page s y.txn }
    back := { s.back with
      queue := s.back.queue ++ more, waiting := v.back.waiting, nextId := s.back.nextId + more.length }
    ev := v.ev }
  waiting : ∀ w ∈ s.back.waiting, w ∈ v.back.waiting
  others : ∀ tag, tag ∉ tags → findSlot v tag = findSlot s tag
  answers : ∀ tag ∈ tags, ∀ y, findSlot s tag = some y → ∃ ph, findSlot v tag = some { y with phase := ph } ∧
    WaiterAnswered page s y.txn v.back.waiting more ph
  steps : WaitersServed page tags s v

/-- The waiters behind one that has no slot are all. -/
theorem AllServed.cons_none (h : AllServed page tags s v more) (hnone : findSlot s tag = none) :
    AllServed page (tag :: tags) s v more where
  frame := by
    rw [List.filterMap_cons_none (by rw [hnone]; rfl)]
    exact h.frame
  waiting := h.waiting
  others tag' hnot := h.others tag' fun hmem => hnot (List.mem_cons_of_mem tag hmem)
  answers tag' hmem y hy := by
    obtain rfl | hmem := List.mem_cons.mp hmem
    · exact absurd (hnone.symm.trans hy) nofun
    · exact h.answers tag' hmem y hy
  steps := ⟨s, h.steps, fun _ => rfl, fun y hy => absurd (hnone.symm.trans hy) nofun⟩

/-- The first waiter has taken the result, and then the others do. -/
theorem AllServed.cons_some {y : Slot} (hs : Serving y.txn .key s) (hy : findSlot s y.txn.tag = some y)
    (hfirst : Served y.txn (waiterOp page s y.txn).toList more ph s m)
    (hanswer : WaiterAnswered page s y.txn m.back.waiting more ph)
    (hstep : (admits (domState s y.txn.dom) y.txn.dir = false → m = s.refused y.txn .key .closed .noReason) ∧
      (admits (domState s y.txn.dom) y.txn.dir = true →
        (page = none → m = s.refused y.txn .key .absent .noReason) ∧ ∀ p, page = some p → GoesOn y.txn p s m))
    (h : AllServed page tags m v more') : AllServed page (y.txn.tag :: tags) s v (more ++ more') := by
  obtain ⟨hdoms, hseeds, hcab⟩ := hfirst.same
  have hself := hfirst.findSlot_self hs hy
  have hafter (tag : Tag) (z : Slot) (hz : findSlot s tag = some z) :
      ∃ ph, findSlot m tag = some { z with phase := ph } := by
    by_cases htag : tag = y.txn.tag
    · obtain rfl : y = z := Option.some.inj (hy.symm.trans (htag ▸ hz))
      exact ⟨ph, htag ▸ hself⟩
    · exact ⟨z.phase, (hfirst.findSlot_other hs htag).trans hz⟩
  refine ⟨?_, fun w hw => h.waiting w (hfirst.waiting w hw), fun tag hnot => ?_, fun tag hmem z hz => ?_, ?_⟩
  · have hops : (tags.filterMap fun tag => (findSlot m tag).bind fun z => waiterOp page m z.txn) =
        tags.filterMap fun tag => (findSlot s tag).bind fun z => waiterOp page s z.txn := by
      refine List.filterMap_congr fun tag _ => ?_
      rw [waiterOp_congr page hdoms hcab]
      by_cases htag : tag = y.txn.tag
      · rw [htag, hself, hy]
        rfl
      · rw [hfirst.findSlot_other hs htag]
    have hcons : ((y.txn.tag :: tags).filterMap fun tag => (findSlot s tag).bind fun z => waiterOp page s z.txn) =
        (waiterOp page s y.txn).toList ++ tags.filterMap fun tag => (findSlot s tag).bind fun z => waiterOp page s z.txn := by
      rw [List.filterMap_cons, hy]
      cases hop : waiterOp page s y.txn <;> simp [hop]
    have hframe := h.frame
    rw [hops, hfirst.frame] at hframe
    rw [hcons]
    simpa [State.moveSlot, Nat.add_assoc] using hframe
  · obtain ⟨hne, hnot⟩ := not_or.mp (List.mem_cons.not.mp hnot)
    exact (h.others tag hnot).trans (hfirst.findSlot_other hs hne)
  · by_cases hlater : tag ∈ tags
    · obtain ⟨ph₀, hm⟩ := hafter tag z hz
      obtain ⟨ph₁, hv, hlast⟩ := h.answers tag hlater _ hm
      exact ⟨ph₁, hv, (hlast.congr hdoms hseeds hcab).mono (fun _ hw => hw) fun _ hq => List.mem_append_right _ hq⟩
    · obtain rfl : tag = y.txn.tag := (List.mem_cons.mp hmem).resolve_right hlater
      obtain rfl : y = z := Option.some.inj (hy.symm.trans hz)
      exact ⟨ph, (h.others _ hlater).trans hself, hanswer.mono h.waiting fun _ hq => List.mem_append_left _ hq⟩
  · refine ⟨m, h.steps, fun hnone => absurd (hy.symm.trans hnone) nofun, fun z hz => ?_⟩
    obtain rfl : y = z := Option.some.inj (hy.symm.trans hz)
    exact hstep

theorem allServed_foldl (page : Option Page) (tags : List Tag) (hlive : live s = true) (hkeys : KeyWaiters tags s) :
    ∃ more, AllServed page tags s (tags.foldl (serveWaiter page) s) more := by
  induction tags generalizing s with
  | nil => exact ⟨[], by simp, fun _ hw => hw, fun _ _ => rfl, by simp, rfl⟩
  | cons tag tags ih =>
    rw [List.foldl_cons]
    have hrest : KeyWaiters tags s := fun y hy htag => hkeys y hy (List.mem_cons_of_mem tag htag)
    cases hy : findSlot s tag with
    | none =>
      have hstep : serveWaiter page s tag = s := by rw [serveWaiter.eq_def, hy]
      obtain ⟨more, hall⟩ := ih hlive hrest
      rw [hstep]
      exact ⟨more, hall.cons_none hy⟩
    | some y =>
      have hs := hkeys.serving List.mem_cons_self hy
      obtain rfl := tag_of_findSlot s hy
      obtain ⟨more, ph, hfirst, hanswer⟩ := serveWaiter_served hlive hs page
      obtain ⟨-, -, hcab⟩ := hfirst.same
      obtain ⟨more', hall⟩ := ih (s := serveWaiter page s y.txn.tag) (by rw [live, hcab]; exact hlive)
        (hfirst.keyWaiters hs hrest)
      refine ⟨more ++ more', hall.cons_some hs hy hfirst hanswer ?_⟩
      rw [serveWaiter_eq hs]
      refine ⟨fun hno => if_pos hno, fun hyes => ?_⟩
      rw [if_neg (by simp [hyes])]
      refine ⟨fun hp => by rw [hp]; rfl, fun p hp => ?_⟩
      rw [hp]
      exact hs.classCheck_goesOn hlive p

end All

end Sys2Proof.Machine

/-! PROOFS. The end of a walk, assembled: the lock answer, the insertion, and what stays (WalkCompletes). -/

namespace Sys2Proof.Machine

/-! ## The answer of a lock request (R68) -/

theorem answerLock_eq (lock : Bool) (c : AnsCode) (s : State) : (if lock then answerLock c s else s) = { s with
    link := { s.link with slot := if lock = true ∧ s.link.slot = .waiting then .ready c [] else s.link.slot } } := by
  cases lock with
  | false => rfl
  | true =>
    cases hslot : s.link.slot <;> simp [answerLock, State.onLink, hslot] <;> rw [← hslot]

/-! ## The insertion of a walk's page (R54 to R56) -/

/-- Page `p` is inserted: a DATA page without a lock request into its set, any other into a Fixed Buffer victim unless all are
locked, which is then to be reported. -/
structure Inserted (p : Page) (lock : Bool) (t t' : Translation) (skip : Bool) : Prop where
  rest : t' = { t with fixed := t'.fixed, sets := t'.sets }
  skips : skip = true ↔ (lock = true ∨ p.cls = .key) ∧ AllLocked t
  set : lock = false → p.cls ≠ .key → t'.fixed = t.fixed ∧ t'.sets = (t.onSet (setIndex p.dom p.fpn) (SetRow.with p)).sets
  fixed : lock = true ∨ p.cls = .key → t'.sets = t.sets ∧ (AllLocked t → t'.fixed = t.fixed) ∧
    (¬AllLocked t → ∃ i, TakesVictim i { held := { valid := true, fields := p }, lock := lock, used := true } t t')

theorem insertSet_eq (p : Page) (t : Translation) : t.insertSet p = t.onSet (setIndex p.dom p.fpn) (SetRow.with p) := rfl

theorem insertPage_inserted {s : State} (hlive : live s = true) (p : Page) (lock : Bool) : ∃ t skip,
    insertPage p lock s = { s with
      xlat := t, ev := { s.ev with flags := s.ev.flags ||| (if skip then Flag.bufferSkip.mark else 0#11) } } ∧
    Inserted p lock s.xlat t skip := by
  by_cases hfixed : lock = true ∨ p.cls = .key
  · have hdef : insertPage p lock s = (s.xlat.insertFixed p lock).elim (raise .bufferSkip s) fun t => s.onXlat fun _ => t := by
      rw [insertPage, if_pos (by simpa using hfixed)]
      cases s.xlat.insertFixed p lock <;> rfl
    have hnotset (h : lock = false) (hcls : p.cls ≠ .key) : False := by
      obtain hlock | hkey := hfixed
      · exact absurd (hlock.symm.trans h) Bool.noConfusion
      · exact hcls hkey
    by_cases hall : AllLocked s.xlat
    · rw [hdef, Translation.insertFixed_none p lock hall]
      exact ⟨s.xlat, true, raise_eq hlive _, rfl, by simp [hfixed, hall], fun h hcls => (hnotset h hcls).elim,
        fun _ => ⟨rfl, fun _ => rfl, fun hnot => absurd hall hnot⟩⟩
    · obtain ⟨i, t, ht, hrest, htakes⟩ := Translation.insertFixed_takes p lock hall
      have hsets : t.sets = s.xlat.sets := by rw [hrest]
      rw [hdef, ht]
      refine ⟨t, false, by simp [State.onXlat], ?_, by simp [hall], fun h hcls => (hnotset h hcls).elim,
        fun _ => ⟨hsets, fun h => absurd h hall, fun _ => ⟨i, htakes⟩⟩⟩
      rw [hsets]
      exact hrest
  · have hdef : insertPage p lock s = s.onXlat (.insertSet p) := if_neg (by simpa using hfixed)
    rw [hdef]
    exact ⟨s.xlat.insertSet p, false, by simp [State.onXlat], rfl, by simp [hfixed], fun _ _ => ⟨rfl, rfl⟩,
      fun h => absurd h hfixed⟩

/-! ## The walk's end -/

/-- The walk's page as its end inserts it: only where it is usable, unstale and its domain OPEN. -/
structure WalkPlaced (page : Option Page) (w : Walk) (st : DomState) (t t' : Translation) (skip : Bool) : Prop where
  rest : t' = { t with fixed := t'.fixed, sets := t'.sets }
  skips : skip = true ↔ ∃ p, page = some p ∧ w.stale = false ∧ st = .opened ∧ (w.lock = true ∨ p.cls = .key) ∧ AllLocked t
  withheld : page = none ∨ w.stale = true ∨ st ≠ .opened → t'.fixed = t.fixed ∧ t'.sets = t.sets
  inserted : ∀ p, page = some p → w.stale = false → st = .opened → Inserted p w.lock t t' skip

/-- The state when a walk's burst has arrived and the walk has left the list. -/
def State.walkLeft (w : Walk) (s : State) : State := { s with xlat := { s.xlat with
  walks := s.xlat.walks.filter fun v => !(v.dom == w.dom && v.fpn == w.fpn)
  waiting := s.xlat.waiting.map fun v => { v with released := true } } }

/-- Waiters, answer and insertion, one after the other. -/
theorem finishWalk_eq {w : Walk} {line : Line} {s : State} {page : Option Page} (hlive : live s = true)
    (hpage : page = (Desc.ofBits (lineDescs line)[descIndex w.fpn]).page w.dom w.fpn (domEpoch s w.dom))
    (hkeys : KeyWaiters w.waiters s) : ∃ v more t skip, AllServed page w.waiters (s.walkLeft w) v more ∧
      WalkPlaced page w (domState s w.dom) v.xlat t skip ∧ finishWalk w line s = { v with
        xlat := t
        ev := { v.ev with flags := v.ev.flags ||| (if skip then Flag.bufferSkip.mark else 0#11) }
        link := { v.link with
          slot := if w.lock = true ∧ v.link.slot = .waiting then .ready (lockAnswer page w.stale (domState s w.dom)) []
            else v.link.slot } } := by
  obtain ⟨more, hall⟩ := allServed_foldl (s := s.walkLeft w) page w.waiters hlive hkeys
  obtain ⟨v, hv⟩ : ∃ v, v = w.waiters.foldl (serveWaiter page) (s.walkLeft w) := ⟨_, rfl⟩
  rw [← hv] at hall
  have hvlive : live v = true := by rw [hall.frame]; exact hlive
  have hanswer := answerLock_eq w.lock (lockAnswer page w.stale (domState s w.dom)) v
  have hfinish : finishWalk w line s = page.elim (if w.lock then answerLock (lockAnswer page w.stale (domState s w.dom)) v else v)
      fun p => if w.stale = false ∧ domState s w.dom = .opened then
        insertPage p w.lock (if w.lock then answerLock (lockAnswer page w.stale (domState s w.dom)) v else v)
      else if w.lock then answerLock (lockAnswer page w.stale (domState s w.dom)) v else v := by
    rw [hv]
    unfold finishWalk
    dsimp only
    rw [← hpage]
    cases page <;> rfl
  generalize ha : (if w.lock then answerLock (lockAnswer page w.stale (domState s w.dom)) v else v) = a at hfinish
  rw [ha] at hanswer
  by_cases hinserts : ∃ p, page = some p ∧ w.stale = false ∧ domState s w.dom = .opened
  · obtain ⟨p, rfl, hfresh, hopen⟩ := hinserts
    rw [Option.elim_some, if_pos ⟨hfresh, hopen⟩] at hfinish
    obtain ⟨t, skip, hinsert, hplaced⟩ := insertPage_inserted (s := a) (by rw [hanswer]; exact hvlive) p w.lock
    rw [hinsert, hanswer] at hfinish
    rw [hanswer] at hplaced
    refine ⟨v, more, t, skip, hall, ⟨hplaced.rest, ?_, ?_, ?_⟩, hfinish⟩
    · rw [hplaced.skips]
      simp [hfresh, hopen]
    · simp [hfresh, hopen]
    · rintro p' ⟨⟩ - -
      exact hplaced
  · have hkept : finishWalk w line s = a := by
      rw [hfinish]
      cases page with
      | none => rfl
      | some p => exact if_neg fun ⟨hfresh, hopen⟩ => hinserts ⟨p, rfl, hfresh, hopen⟩
    refine ⟨v, more, v.xlat, false, hall, ⟨rfl, ?_, fun _ => ⟨rfl, rfl⟩, ?_⟩, by rw [hkept, hanswer]; simp⟩
    · simp only [Bool.false_eq_true, false_iff]
      exact fun ⟨p, hp, hfresh, hopen, _⟩ => hinserts ⟨p, hp, hfresh, hopen⟩
    · exact fun p hp hfresh hopen => absurd ⟨p, hp, hfresh, hopen⟩ hinserts

theorem lockAnswer_some (p : Page) (stale : Bool) (st : DomState) :
    lockAnswer (some p) stale st = if stale = true then .busy else if st = .opened then .accepted else .state := by
  by_cases hopen : st = .opened <;> simp [lockAnswer, hopen]

/-- The row of a walk whose burst has arrived. -/
theorem exec_walkCompletion {s : State} {x : Burst} {w : Walk} {k : LineKey} (hpulse : PulseTaken s) (hlive : live s = true)
    (hhead : HeadRead x .walk s) (hw : walkAwaiting x.req.id s = some w) (hk : mapKey s = some k) :
    exec .walkCompletion s =
      .next (finishWalk w (decipher k x.req.line (s.mem.readLine x.req.line)) (takeBurst x s)) := by
  have harrives : walkArrives w x s = finishWalk w (decipher k x.req.line (s.mem.readLine x.req.line)) (takeBurst x s) := by
    rw [walkArrives, hk]
  show Host.Outcome.next (completeWalk (afterPulse s)) = _
  rw [afterPulse_of_taken hpulse, completeWalk, arrivingRead_of_head hhead]
  dsimp only
  rw [hw]
  dsimp only
  rw [if_pos ⟨hlive, hhead.2.2⟩, harrives]

/-- Settles O9: the waiters in their order (`allServed_foldl`), the lock answer, and the insertion (`insertPage_inserted`). -/
theorem walkCompletes : Obligations.WalkCompletes := by
  unfold Obligations.WalkCompletes
  intro s x w k page hpulse hlive hhead hw hk hkeys hpage
  have hexec := exec_walkCompletion hpulse hlive hhead hw hk
  have hburst := takeBurst_taken x s
  obtain ⟨v, more, t, skip, hall, hplaced, hu⟩ := finishWalk_eq (s := takeBurst x s) hlive hpage hkeys
  generalize finishWalk w (decipher k x.req.line (s.mem.readLine x.req.line)) (takeBurst x s) = u at hexec hu
  generalize hb : takeBurst x s = b at hall hburst hplaced hu
  have hdom : domState b w.dom = domState s w.dom := by rw [← hb]; rfl
  rw [hdom] at hplaced hu
  have hvxlat : v.xlat = { s.xlat with
      walks := s.xlat.walks.filter fun v => !(v.dom == w.dom && v.fpn == w.fpn)
      waiting := s.xlat.waiting.map fun v => { v with released := true } } := by
    rw [hall.frame, ← hb]
    rfl
  have hvlink : v.link = s.link := by rw [hall.frame, ← hb]; rfl
  have hxlat : u.xlat = t := by rw [hu]
  obtain ⟨hdoms, hseeds, hcab, hslots⟩ : (b.walkLeft w).doms = s.doms ∧ (b.walkLeft w).seeds = s.seeds ∧
      (b.walkLeft w).cab = s.cab ∧ (b.walkLeft w).front.slots = s.front.slots := by
    rw [← hb]
    exact ⟨rfl, rfl, rfl, rfl⟩
  have hfind := findSlot_congr hslots
  have hops := waiterOp_congr page hdoms hcab
  have huslot := fun tag => findSlot_congr (s := v) (t := u) (by rw [hu]) tag
  have hlocked : AllLocked v.xlat ↔ AllLocked s.xlat := by rw [hvxlat]; exact Iff.rfl
  obtain ⟨hrest, hskips, hwithheld, hinserted⟩ := hplaced
  refine ⟨u, more, b, v, skip, hexec, hburst, ?_, ?_, ?_, ?_, ?_, ?_, ?_, ?_, ?_, ?_, ?_, ?_, ?_, ?_⟩
  · have := hall.steps
    rw [← hb] at this ⊢
    exact this
  · rw [hskips, hlocked]
  · rw [hxlat, ← hrest, hu]
  · rw [hu, hall.frame, hburst.1]
    rfl
  · have hranks : u.back.ranks = b.back.ranks ∧ u.back.clock = b.back.clock := by
      rw [hu, hall.frame]
      exact ⟨rfl, rfl⟩
    obtain ⟨hranks, hclock⟩ := hranks
    intro r
    rw [hranks, hclock]
    exact hburst.2 r
  · rw [hxlat, hrest, hvxlat]
  · rw [hxlat, hrest, hvxlat]
  · intro hno
    rw [hxlat]
    obtain ⟨hfixed, hsets⟩ := hwithheld hno
    exact ⟨hfixed.trans (by rw [hvxlat]), hsets.trans (by rw [hvxlat])⟩
  · intro p hp hfresh hopen hlock hcls
    obtain ⟨hfixed, hsets⟩ := (hinserted p hp hfresh hopen).set hlock hcls
    obtain ⟨hpdom, hpfpn⟩ := Prod.mk.inj (Desc.page_pair (hpage.symm.trans hp))
    rw [hxlat]
    refine ⟨hfixed.trans (by rw [hvxlat]), hsets.trans ?_⟩
    rw [hvxlat, hpdom, hpfpn]
    rfl
  · intro p hp hfresh hopen hcase
    obtain ⟨hsets, hkept, htakes⟩ := (hinserted p hp hfresh hopen).fixed hcase
    rw [hxlat]
    refine ⟨hsets.trans (by rw [hvxlat]), fun hfull => ⟨?_, ?_⟩, fun hfree => ?_⟩
    · exact (hkept (hlocked.mpr hfull)).trans (by rw [hvxlat])
    · have hskip : skip = true := hskips.mpr ⟨p, hp, hfresh, hopen, hcase, hlocked.mpr hfull⟩
      rw [hu, if_pos hskip]
      exact mark_of_raised _ _
    · obtain ⟨i, hi⟩ := htakes fun h => hfree (hlocked.mp h)
      rw [hvxlat] at hi
      exact ⟨i, hi⟩
  · rw [hu, ← hvlink]
    cases page with
    | none => rfl
    | some p => rw [lockAnswer_some]
  · have hwaits : u.entry.waiting = s.entry.waiting ++
        w.waiters.filterMap fun tag => (findSlot s tag).bind fun y => waiterOp page s y.txn := by
      rw [hu, hall.frame, hops]
      simp only [hfind]
      rw [← hb]
      rfl
    rw [hwaits]
    congr 1
    cases page with
    | none => simp [waiterOp]
    | some p =>
      refine List.filterMap_congr fun tag _ => ?_
      cases hy : findSlot s tag with
      | none => rfl
      | some y => simp [waiterOp, tag_of_findSlot s hy]
  · intro tag hnot
    exact (huslot tag).trans ((hall.others tag hnot).trans (hfind tag))
  · intro tag hmem y hy
    obtain ⟨ph, hv, hanswer⟩ := hall.answers tag hmem y ((hfind tag).trans hy)
    obtain ⟨hclosed, habsent, hrefused, hhanded, hserved⟩ := hanswer.congr hdoms hseeds hcab
    obtain rfl := tag_of_findSlot s hy
    have hwaiting : u.back.waiting = v.back.waiting := by rw [hu]
    refine ⟨ph, (huslot _).trans hv, hclosed, fun hadmits => ⟨habsent hadmits, fun p hp => ?_⟩⟩
    cases hout : classOutcome (domState s y.txn.dom) y.txn p with
    | refused kind why => exact hrefused hadmits p kind why hp hout
    | handed => exact hhanded hadmits p hp hout
    | served =>
      obtain ⟨hread, hnone, hwrite⟩ := hserved hadmits p hp hout
      rintro l rfl
      rw [hwaiting]
      exact ⟨hread, hnone, hwrite⟩

end Sys2Proof.Machine
